-- ==== Sys2Proof/Word.lean ====
section
/-!
DEFINITION. The machine's word sizes: bytes, 16-bit pixel words and halves of a register, 32-bit bus words (00_scope R11, R16;
20_memory R67). Arithmetic on them is `BitVec`'s own, which wraps.
-/

namespace Sys2Proof

/-- Eight bits: a color channel, a text byte, a tag, a cause (10_state R28, R41, R49, R51). -/
abbrev Byte := BitVec 8

/-- Sixteen bits: an RGB565 pixel word (10_state R37) or a channel field of an operand (30_encoding R90). -/
abbrev Half := BitVec 16

/-- Thirty-two bits: a register, a bus word, a command word (20_memory R67, 30_encoding R86). -/
abbrev Word := BitVec 32

end Sys2Proof
end

