-- ==== Sys2Proof/Config.lean ====
section
/-!
DEFINITION. The parameters of FB565 (00_scope R11-R13): those the spec fixes are given their value, those it leaves OPEN are opaque
constants with no body, so that nothing can be proved of their values.
-/

namespace Sys2Proof.Config

/-- W = H, the side of the pixel grid (00_scope R11). -/
def gridSide : Nat := 8

/-- The number of pixels (00_scope R11). -/
def pixelCount : Nat := 64

/-- SETTLE, the settling delay in time-units (00_scope R12). -/
def settle : BitVec 11 := 1000

/-- MIN_INTERVAL, the least frame interval in time-units (00_scope R12). -/
def minInterval : Word := 10

/-- BATCH_MAX, the entries of the SETPIXS batch memory (00_scope R13). -/
def batchMax : Nat := 64

/-- TEXT_MAX, the bytes of the SHOWMSG text memory (00_scope R13). -/
def textMax : Nat := 256

/-- ID_VALUE, what register ID reads (00_scope R13, 10_state R24). -/
def idValue : Word := 0x35363546

/-- CANCEL_REPORTS, whether a superseded scroll call posts CANCELLED: the spec fixes false (00_scope R13, 43_scroll R162; log 10). -/
def cancelReports : Bool := false

/-- FONT, the font ROM: the column byte `j` of the glyph of a character. OPEN in the spec (00_scope R13, 43_scroll R153), so it has
no body here. Only supported characters are ever looked up. DESIGN CHOICE of the form, safe (log 8). -/
opaque font : Byte → Fin 5 → Byte

/-- ARB, the arbitration between a latched host command and a ready SEQ step: `arb k` says whether the host command goes first at the
`k`-th such choice. OPEN in the spec (20_memory R79), so it has no body. A free value, safe (log 2). -/
opaque arb : Nat → Bool

/-- BASE, the bus address of the register window. OPEN in the spec (20_memory R56); no rule depends on it (log 9). The spec gives the bus
32 data bits (20_memory R67) and no address width: 32 address bits are the model's. DESIGN CHOICE, safe (log 23). -/
opaque base : Word

/-- The bus address at which a window offset stands, BASE + offset (20_memory R56; log 9). That the sum is 32 bits wide and wraps is the
model's. DESIGN CHOICE, safe (log 23). -/
def busAddress (offset : BitVec 12) : Word := base + offset.setWidth 32

/-- TU, the real time of one tick. OPEN in the spec (00_scope R13, R15); no rule depends on it (log 9). That it is held as a whole number,
of nanoseconds, is the model's: the spec gives TU no unit and no granularity. DESIGN CHOICE, safe (log 26). -/
opaque tickNanoseconds : Nat

/-- DEV_CAUSE, the cause codes the device boundary reports. OPEN in the spec (60_exceptions R183). The model accepts every 8-bit
cause, in the set or not: more behaviours than the hardware has, safe (log 9). -/
opaque devCauses : List Byte

end Sys2Proof.Config
end

