-- ==== Sys2Proof/Syntax.lean ====
section
/-!
DEFINITION. The commands of FB565, one constructor per row of the opcode map (30_encoding R93). No command carries an operand in its
word: operands are registers and staging memories (30_encoding R88).
-/

namespace Sys2Proof

/-- The nineteen commands (30_encoding R93). -/
inductive Instr where
  /-- 0x00, does nothing (41_display_lifecycle R125). -/
  | nop
  /-- 0x01, opens the device boundary (41_display_lifecycle R126). -/
  | init
  /-- 0x02, releases the device boundary (41_display_lifecycle R127). -/
  | close
  /-- 0x03, selects the rotation mapping (41_display_lifecycle R128). -/
  | setrot
  /-- 0x04, sets or clears the low-light flag (41_display_lifecycle R129). -/
  | setlowlight
  /-- 0x10, writes one pixel (42_display_pixels R139). -/
  | setpix
  /-- 0x11, reads one pixel (42_display_pixels R140). -/
  | getpix
  /-- 0x12, writes a batch of pixels (42_display_pixels R141). -/
  | setpixs
  /-- 0x13, writes one color to every pixel (42_display_pixels R142). -/
  | fill
  /-- 0x14, writes OFF to every pixel (42_display_pixels R143). -/
  | clear
  /-- 0x15, writes an 8x8 grid (42_display_pixels R144). -/
  | setmatrix
  /-- 0x16, reads the 8x8 grid (42_display_pixels R145). -/
  | getmatrix
  /-- 0x17, mirrors the columns (42_display_pixels R146). -/
  | fliph
  /-- 0x18, mirrors the rows (42_display_pixels R147). -/
  | flipv
  /-- 0x20, packs a color (40_codec R113). -/
  | pack
  /-- 0x21, unpacks a 16-bit value (40_codec R114). -/
  | unpack
  /-- 0x22, parses `#RRGGBB` (40_codec R116). -/
  | hex2rgb
  /-- 0x23, formats a color as `#rrggbb` (40_codec R117). -/
  | rgb2hex
  /-- 0x30, starts a scroll call (43_scroll R160). -/
  | showmsg
  deriving DecidableEq, Repr

end Sys2Proof
end

