-- ==== Sys2Proof/WellFormed.lean ====
section
/-!
DEFINITION. Which command words are well formed (30_encoding R87, R92, R94). A command's syntax has no operand, so every `Instr` is
well formed; what can be ill formed is the word: a reserved bit set, or a reserved opcode.
-/

namespace Sys2Proof

/-- The OP field, bits [7:0] (30_encoding R87). -/
def opField (w : Word) : Byte := w.extractLsb' 0 8

/-- The RSV field, bits [31:8] (30_encoding R87). -/
def rsvField (w : Word) : BitVec 24 := w.extractLsb' 8 24

/-- RSV must be 0 (30_encoding R87, R92). -/
def rsvZero (w : Word) : Bool := rsvField w == 0

/-- The opcodes that are not reserved, as the ranges between the reserved ones (30_encoding R94): 0x00-0x04, 0x10-0x18, 0x20-0x23
and 0x30. -/
def opcodeAssigned (op : Byte) : Bool :=
  let n := op.toNat
  decide (n ≤ 0x04) || (decide (0x10 ≤ n) && decide (n ≤ 0x18)) || (decide (0x20 ≤ n) && decide (n ≤ 0x23)) || decide (n = 0x30)

/-- A command word that runs a command: RSV is 0 and OP is assigned (30_encoding R92, R94). -/
def wordWellFormed (w : Word) : Bool := rsvZero w && opcodeAssigned (opField w)

/-- Every command is well formed as syntax: it has no field (30_encoding R88). -/
def Instr.wellFormed : Instr → Bool
  | .nop => true
  | .init => true
  | .close => true
  | .setrot => true
  | .setlowlight => true
  | .setpix => true
  | .getpix => true
  | .setpixs => true
  | .fill => true
  | .clear => true
  | .setmatrix => true
  | .getmatrix => true
  | .fliph => true
  | .flipv => true
  | .pack => true
  | .unpack => true
  | .hex2rgb => true
  | .rgb2hex => true
  | .showmsg => true

end Sys2Proof
end

