-- ==== Sys2Proof/Decode.lean ====
section
/-!
DEFINITION. The decoder of a command word, total, rejecting by name (30_encoding R86, R87, R92-R94), and the encoder.
-/

namespace Sys2Proof

/-- Why a command word is illegal (60_exceptions R182). -/
inductive Illegal where
  /-- CMD[31:8] is not 0: sub-cause 1 (30_encoding R92). -/
  | rsvNonzero
  /-- A reserved opcode: sub-cause 2 (30_encoding R94). -/
  | reservedOpcode
  deriving DecidableEq, Repr

/-- The opcode of each command (30_encoding R93). -/
def Instr.opcode : Instr → Byte
  | .nop => 0x00
  | .init => 0x01
  | .close => 0x02
  | .setrot => 0x03
  | .setlowlight => 0x04
  | .setpix => 0x10
  | .getpix => 0x11
  | .setpixs => 0x12
  | .fill => 0x13
  | .clear => 0x14
  | .setmatrix => 0x15
  | .getmatrix => 0x16
  | .fliph => 0x17
  | .flipv => 0x18
  | .pack => 0x20
  | .unpack => 0x21
  | .hex2rgb => 0x22
  | .rgb2hex => 0x23
  | .showmsg => 0x30

/-- The opcode map read from the opcode's side (30_encoding R93); every number that is missing is reserved (R94). -/
def instrOfOpcode (op : Byte) : Option Instr :=
  match op.toNat with
  | 0x00 => some .nop
  | 0x01 => some .init
  | 0x02 => some .close
  | 0x03 => some .setrot
  | 0x04 => some .setlowlight
  | 0x10 => some .setpix
  | 0x11 => some .getpix
  | 0x12 => some .setpixs
  | 0x13 => some .fill
  | 0x14 => some .clear
  | 0x15 => some .setmatrix
  | 0x16 => some .getmatrix
  | 0x17 => some .fliph
  | 0x18 => some .flipv
  | 0x20 => some .pack
  | 0x21 => some .unpack
  | 0x22 => some .hex2rgb
  | 0x23 => some .rgb2hex
  | 0x30 => some .showmsg
  | _ => none

/-- The decoder: check 1, RSV, then check 2, the opcode (30_encoding R92, R94; 60_exceptions R189). -/
def decode (w : Word) : Except Illegal Instr :=
  if rsvField w ≠ 0 then .error .rsvNonzero
  else
    match instrOfOpcode (opField w) with
    | some i => .ok i
    | none => .error .reservedOpcode

/-- The word on the bus made of four bytes, lane 0 at the lowest address (20_memory R70). -/
def wordOfBytes (b0 b1 b2 b3 : Byte) : Word := b3 ++ b2 ++ b1 ++ b0

/-- The decoder on the four bytes of a CMD write, in address order (20_memory R70, 30_encoding R86). -/
def decodeBytes (b0 b1 b2 b3 : Byte) : Except Illegal Instr := decode (wordOfBytes b0 b1 b2 b3)

/-- The CMD word of a command (30_encoding R87): RSV = 0, OP the opcode. -/
def encode (i : Instr) : Word := (0 : BitVec 24) ++ i.opcode

/-- The instruction the decoder reads from the opcode-table bits `w`: the table's numbering is the CMD word's own, so its byte `k`
is lane `k` of the CMD write (20_memory R70). Bits from `nbits` on are 0. -/
def decodeTableWord (nbits w : Nat) : Option Instr :=
  let v := w % 2 ^ nbits
  match decodeBytes (BitVec.ofNat 8 v) (BitVec.ofNat 8 (v / 2 ^ 8)) (BitVec.ofNat 8 (v / 2 ^ 16)) (BitVec.ofNat 8 (v / 2 ^ 24)) with
  | .ok i => some i
  | .error _ => none

end Sys2Proof
end

