-- ==== Sys2Proof/Machine/State.lean ====
section
/-!
DEFINITION. The state of FB565 as plain data (10_state), the reasons a step can stop, and the state right after reset (10_state R55).
Fields marked MODEL are the model's own: they hold what the environment is going to do and what the bus answered.
-/

namespace Sys2Proof.Machine

/-- LIFECYCLE (10_state R43). -/
inductive Lifecycle where
  | uninit
  | ready
  | closed
  deriving DecidableEq, Repr

/-- The kinds of pipeline operation of SEQ (10_state R48). -/
inductive SeqKind where
  | start
  | frame
  | finish
  deriving DecidableEq, Repr

/-- PIPE, the owner of the pixel pipeline (10_state R48). -/
inductive Pipe where
  | free
  | host
  | seq (kind : SeqKind)
  deriving DecidableEq, Repr

/-- SEQ_STATE (10_state R49). -/
inductive SeqState where
  | idle
  | start
  | run
  | finish
  | settle
  deriving DecidableEq, Repr

/-- A stored color: three 8-bit channels (00_scope R18). -/
structure Rgb where
  r : Byte
  g : Byte
  b : Byte
  deriving DecidableEq, Repr

/-- The framebuffer and the staging memories, as bytes of the register window by offset: FB at 0x100 (20_memory R65), MSTAGE at 0x200,
MRESULT at 0x400, BATCH at 0x800, TEXT at 0xC00 (10_state R37-R41). A byte that is not listed reads 0, its reset value (10_state R55).
Canonical form: `Memory.wf`. -/
abbrev Memory := List Host.Cell

/-- The fifteen operand registers (10_state R23, R28-R34). -/
structure OperandRegs where
  pos : Word
  colorRg : Word
  colorB : Word
  arg : Word
  mshape : Word
  rowlen : Word
  textcolRg : Word
  textcolB : Word
  backcolRg : Word
  backcolB : Word
  speed : Word
  textlen : Word
  hexlen : Word
  hexin0 : Word
  hexin1 : Word
  deriving DecidableEq, Repr

/-- PENDING, the latched command (10_state R47). The word stays after `valid` is cleared: it is the word being executed (log 15). -/
structure Pending where
  valid : Bool
  word : Word
  deriving DecidableEq, Repr

/-- The payload of REQ and of CUR: one scroll call (10_state R49). `text` is the list of the `n` filtered bytes (log 17). -/
structure ScrollCall where
  text : List Byte
  n : BitVec 9
  tcolor : Rgb
  bcolor : Rgb
  interval : Word
  tag : Byte
  deriving DecidableEq, Repr

/-- The sequencer record (10_state R49). `tw` and `offset` are CUR.TW and CUR.offset. -/
structure Sequencer where
  phase : SeqState
  reqValid : Bool
  req : ScrollCall
  cur : ScrollCall
  tw : BitVec 16
  offset : BitVec 16
  tcount : Word
  tickPending : Bool
  settleCnt : BitVec 11
  lastTag : Byte
  deriving DecidableEq, Repr

/-- The fields of SCROLL_DONE (10_state R51). -/
structure ScrollDone where
  valid : Bool
  ovf : Bool
  code : BitVec 4
  tag : Byte
  cause : Byte
  deriving DecidableEq, Repr

/-- A request to DEVICE (60_exceptions R198). A write carries the 128 bytes of the framebuffer at device offset 0 (20_memory R58, R72). -/
inductive DevRequest where
  | openDev
  | write (buffer : List Byte)
  | closeDev
  deriving DecidableEq, Repr

/-- DEVICE's answer to a request (60_exceptions R198). -/
inductive DevAnswer where
  | ok
  | fail (cause : Byte)
  deriving DecidableEq, Repr

/-- A request that DEVICE has answered, the answer not yet taken up by the operation that waits for it (60_exceptions R190, R198; log 5). -/
structure DevReply where
  request : DevRequest
  answer : DevAnswer
  deriving DecidableEq, Repr

/-- The error kinds (60_exceptions R179). -/
inductive ErrCode where
  | ok
  | validation
  | state
  | deviceIo
  | illegal
  | cancelled
  deriving DecidableEq, Repr

/-- The outcome of a host command, as ERR records it (60_exceptions R185). -/
structure Report where
  code : ErrCode
  cause : Byte
  index : Byte
  deriving DecidableEq, Repr

/-- A HOST bus access, by byte offset in the window and size in bytes (20_memory R59, R67). -/
inductive BusAccess where
  | read (offset : BitVec 12) (size : Nat)
  | write (offset : BitVec 12) (size : Nat) (value : Word)
  deriving DecidableEq, Repr

/-- The bus's response to a HOST access (20_memory R59); `none` before the first access. -/
inductive BusResponse where
  | none
  | readOkay (value : Word)
  | writeOkay
  | buserr
  deriving DecidableEq, Repr

/-- MODEL. What moves next (60_exceptions R190): an environment event, or a pick of one of the block's own agents (log 1). -/
inductive Event where
  /-- HOST makes a bus access. -/
  | host (access : BusAccess)
  /-- CMDENG makes its enabled step, if it has one: execute, request a flush, go on after an answer, complete. -/
  | cmdeng
  /-- SEQ makes its enabled step, if it has one. -/
  | seq
  /-- TIMEBASE ticks. -/
  | tick
  /-- DEVICE answers the outstanding request. -/
  | answer (a : DevAnswer)
  /-- RESET. -/
  | reset
  deriving DecidableEq, Repr

/-- The whole state of FB565 and, in the last three fields, the model's own. -/
structure State where
  /-- The operand registers (10_state R23). -/
  regs : OperandRegs
  /-- CMD: the last latched command word (10_state R25). -/
  cmd : Word
  /-- ERR (10_state R27). -/
  err : Word
  /-- RESULT_RGB (10_state R35). -/
  resultRgb : Word
  /-- RESULT_565 (10_state R35). -/
  result565 : Word
  /-- HEXOUT0 (10_state R36). -/
  hexout0 : Word
  /-- HEXOUT1 (10_state R36). -/
  hexout1 : Word
  /-- FB and the staging memories (10_state R37-R41). -/
  mem : Memory
  /-- LIFECYCLE (10_state R43). -/
  lifecycle : Lifecycle
  /-- ROT (10_state R44). -/
  rot : BitVec 2
  /-- LOWLIGHT (10_state R45). -/
  lowlight : Bool
  /-- DEV_OPEN (10_state R46). -/
  devOpen : Bool
  /-- PENDING (10_state R47). -/
  pending : Pending
  /-- HAZ (10_state R47). -/
  haz : Bool
  /-- PIPE (10_state R48). -/
  pipe : Pipe
  /-- A pipeline operation has updated FB and its flush is still to be requested (20_memory R76, R80; log 6). -/
  flushDue : Bool
  /-- The one outstanding device request (20_memory R85, 60_exceptions R198). -/
  devReq : Option DevRequest
  /-- DEVICE's answer, from its step until the waiting operation goes on (60_exceptions R190, R198; log 5). -/
  devAns : Option DevReply
  /-- How the host command in progress ended, from the end of its execution until its complete step (30_encoding R91; log 5). -/
  outcome : Option Report
  /-- The sequencer record (10_state R49). -/
  sq : Sequencer
  /-- SCROLL_DONE (10_state R51). -/
  done : ScrollDone
  /-- MODEL. The bus's last response to HOST (20_memory R59; log 13). -/
  busResp : BusResponse
  /-- MODEL. The events still to come, first one next (log 1). -/
  agenda : List Event
  /-- MODEL. How many ARB draws have been made (log 2). -/
  arbCount : Nat
  deriving DecidableEq, Repr

/-- Why a step can stop. FB565 itself has no fault: every error is a result (60_exceptions R178). -/
inductive Fault where
  /-- Raised by DEVICE's answer step when it answers a request that the owner of PIPE does not make (an answered DevOpen while SEQ owns
  the pipeline, or a request with PIPE free). 60_exceptions R198 rules such a state out and no run from reset reaches it. Safe (log 14). -/
  | misownedAnswer
  deriving DecidableEq, Repr

/-- Why a step can be refused. -/
inductive Refusal where
  /-- Raised by an arm of `exec` whose instruction has no meaning yet; no arm does. Safe. -/
  | notModelled (mnemonic : String)
  deriving DecidableEq, Repr

/-- An empty scroll call: what the REQ and CUR payloads hold at reset. The spec leaves them unspecified and no rule reads them before
writing them (10_state R49). DESIGN CHOICE, unsafe (log 7). -/
def ScrollCall.blank : ScrollCall :=
  { text := [], n := 0, tcolor := ⟨0, 0, 0⟩, bcolor := ⟨0, 0, 0⟩, interval := 0, tag := 0 }

/-- The machine right after RESET (10_state R55, 70_reset_and_hazards R204). -/
def State.reset : State where
  regs :=
    { pos := 0, colorRg := 0, colorB := 0, arg := 0, mshape := 0, rowlen := 0, textcolRg := 0, textcolB := 0, backcolRg := 0,
      backcolB := 0, speed := 0, textlen := 0, hexlen := 0, hexin0 := 0, hexin1 := 0 }
  cmd := 0
  err := 0
  resultRgb := 0
  result565 := 0
  hexout0 := 0
  hexout1 := 0
  mem := []
  lifecycle := .uninit
  rot := 0
  lowlight := false
  devOpen := false
  pending := { valid := false, word := 0 }
  haz := false
  pipe := .free
  flushDue := false
  devReq := none
  devAns := none
  outcome := none
  sq :=
    { phase := .idle, reqValid := false, req := .blank, cur := .blank, tw := 0, offset := 0, tcount := 0, tickPending := false,
      settleCnt := 0, lastTag := 0 }
  done := { valid := false, ovf := false, code := 0, tag := 0, cause := 0 }
  busResp := .none
  agenda := []
  arbCount := 0

end Sys2Proof.Machine
end

