-- ==== Sys2Proof/Machine/Flags.lean ====
section
/-!
DEFINITION. The status and error words. FB565 has no condition flags (10_state R53): what a command "flags" is ERR and STATUS
(00_scope R19). Here are the values of the error codes and causes, the layout of ERR, and the computed views STATUS, SCROLL_STATUS, SCROLL_DONE and
SCROLL_POS with their write-one-to-clear bits.
-/

namespace Sys2Proof.Machine

/-- The value of a code in ERR.CODE and SCROLL_DONE.CODE (60_exceptions R179). -/
def ErrCode.bits : ErrCode → BitVec 4
  | .ok => 0
  | .validation => 1
  | .state => 2
  | .deviceIo => 3
  | .illegal => 4
  | .cancelled => 5

/-- The sub-causes of a ValidationError (60_exceptions R180). -/
inductive ValidationCause where
  | position
  | color
  | shape
  | rotation
  | hex
  | length
  deriving DecidableEq, Repr

/-- The value of a validation sub-cause (60_exceptions R180). -/
def ValidationCause.bits : ValidationCause → Byte
  | .position => 1
  | .color => 2
  | .shape => 3
  | .rotation => 4
  | .hex => 5
  | .length => 6

/-- lcause: the sub-cause of a StateError that names the lifecycle state found (41_display_lifecycle R123). -/
def lcause : Lifecycle → Byte
  | .uninit => 1
  | .ready => 2
  | .closed => 3

/-- The sub-cause of an illegal command (60_exceptions R182). -/
def illegalCause : Illegal → Byte
  | .rsvNonzero => 1
  | .reservedOpcode => 2

/-- Success (60_exceptions R185). -/
def Report.success : Report := { code := .ok, cause := 0, index := 0 }

/-- ValidationError(cause, index) (60_exceptions R180). -/
def Report.validation (c : ValidationCause) (index : Byte) : Report := { code := .validation, cause := c.bits, index := index }

/-- StateError(lcause, 0) (60_exceptions R181). -/
def Report.stateError (l : Lifecycle) : Report := { code := .state, cause := lcause l, index := 0 }

/-- DeviceIOError(cause, 0); the cause passes through unchanged (60_exceptions R183). -/
def Report.deviceIo (cause : Byte) : Report := { code := .deviceIo, cause := cause, index := 0 }

/-- IllegalCommand(sub-cause, 0) (60_exceptions R182). -/
def Report.illegalCommand (e : Illegal) : Report := { code := .illegal, cause := illegalCause e, index := 0 }

/-- The ERR word: INDEX, OPCODE, CAUSE, four zeros, CODE (10_state R27, 60_exceptions R185). INDEX is what the raising rule gives, also for
HEX2RGB and SHOWMSG, where R27's table says 0 and 60_exceptions R180 does not. DEDUCED, unsafe (log 25). -/
def errWord (op : Byte) (r : Report) : Word := r.index ++ op ++ r.cause ++ (0 : BitVec 4) ++ r.code.bits

/-- One bit as a bit vector. -/
def bit (b : Bool) : BitVec 1 := BitVec.ofBool b

/-- STATUS.LIFECYCLE (10_state R26). -/
def Lifecycle.bits : Lifecycle → BitVec 2
  | .uninit => 0
  | .ready => 1
  | .closed => 2

/-- SEQ_STATE as a number (10_state R49). -/
def SeqState.bits : SeqState → BitVec 3
  | .idle => 0
  | .start => 1
  | .run => 2
  | .finish => 3
  | .settle => 4

/-- CMD_BUSY: a command is pending or a host command is executing (10_state R47). -/
def State.cmdBusy (s : State) : Bool := s.pending.valid || decide (s.pipe = .host)

/-- SEQ_ACTIVE: SEQ_STATE is not IDLE (10_state R26). -/
def State.seqActive (s : State) : Bool := decide (s.sq.phase ≠ .idle)

/-- What STATUS reads (10_state R26). -/
def State.statusWord (s : State) : Word :=
  (0 : BitVec 24) ++ bit s.seqActive ++ bit s.haz ++ s.rot ++ bit s.lowlight ++ s.lifecycle.bits ++ bit s.cmdBusy

/-- ACTIVE_TAG: CUR.tag in RUN or FINISH, 0 otherwise (10_state R50). -/
def Sequencer.activeTag (q : Sequencer) : Byte :=
  match q.phase with
  | .run => q.cur.tag
  | .finish => q.cur.tag
  | .idle => 0
  | .start => 0
  | .settle => 0

/-- What SCROLL_STATUS reads (10_state R50). -/
def State.scrollStatusWord (s : State) : Word :=
  (0 : BitVec 8) ++ s.sq.lastTag ++ s.sq.activeTag ++ (0 : BitVec 3) ++ bit s.sq.tickPending ++ bit s.sq.reqValid ++ s.sq.phase.bits

/-- What SCROLL_DONE reads (10_state R51). -/
def State.scrollDoneWord (s : State) : Word :=
  (0 : BitVec 8) ++ s.done.cause ++ s.done.tag ++ s.done.code ++ (0 : BitVec 2) ++ bit s.done.ovf ++ bit s.done.valid

/-- What SCROLL_POS reads (10_state R52). -/
def State.scrollPosWord (s : State) : Word := s.sq.tw ++ s.sq.offset

/-- A STATUS write: bit 6 clears HAZ, nothing else happens (10_state R26). -/
def State.writeStatus (v : Word) (s : State) : State := { s with haz := s.haz && !v.getLsbD 6 }

/-- A SCROLL_DONE write: bit 0 clears VALID, bit 1 clears OVF (10_state R51). CODE, TAG and CAUSE stay, as R51's words say, where program P3
of 95_test_vectors reads 0 after an acknowledge. DESIGN CHOICE, unsafe (log 24). -/
def State.writeScrollDone (v : Word) (s : State) : State :=
  { s with done := { s.done with valid := s.done.valid && !v.getLsbD 0, ovf := s.done.ovf && !v.getLsbD 1 } }

end Sys2Proof.Machine
end

