-- ==== Sys2Proof/Machine/Ops.lean ====
section
/-!
DEFINITION. The named operations over memory and over the state that every command uses: reading and writing bytes, halves and words;
the framebuffer; completing a command with a report (FB565's whole way of "taking an exception", 60_exceptions R178, R185; there is no
return from one, R193); asking DEVICE and waiting, and the two steps of a flush; posting a scroll completion.
-/

namespace Sys2Proof.Machine

/-! ### Memory -/

/-- The canonical form: offsets strictly rising, and no entry equal to what an unlisted byte reads as. -/
abbrev Memory.wf (m : Memory) : Prop := m.Pairwise (fun c d => c.1 < d.1) ∧ ∀ c ∈ m, c.2 ≠ 0#8

/-- One byte. An unlisted byte reads 0, the reset value of every memory byte (10_state R55). -/
def Memory.readByte (m : Memory) (a : Nat) : Byte :=
  match m with
  | [] => 0
  | (b, v) :: rest => if b = a then v else Memory.readByte rest a

/-- The memory with the byte at `a` unlisted. -/
def Memory.eraseByte (m : Memory) (a : Nat) : Memory := m.filter (fun c => !(c.1 == a))

/-- The memory with the byte at `a` listed, before the first greater offset. -/
def Memory.insertByte (m : Memory) (a : Nat) (v : Byte) : Memory :=
  match m with
  | [] => [(a, v)]
  | c :: rest => if a < c.1 then (a, v) :: c :: rest else c :: Memory.insertByte rest a v

/-- Writes one byte and keeps the canonical form: a byte that becomes what an unlisted byte reads is not listed. -/
def Memory.writeByte (m : Memory) (a : Nat) (v : Byte) : Memory :=
  if v = 0 then m.eraseByte a else (m.eraseByte a).insertByte a v

/-- A 16-bit value, least significant byte at the lower offset (20_memory R70, R72). -/
def Memory.readHalf (m : Memory) (a : Nat) : Half := m.readByte (a + 1) ++ m.readByte a

/-- Writes a 16-bit value, least significant byte at the lower offset (20_memory R70, R72). -/
def Memory.writeHalf (m : Memory) (a : Nat) (v : Half) : Memory :=
  (m.writeByte a (v.extractLsb' 0 8)).writeByte (a + 1) (v.extractLsb' 8 8)

/-- A 32-bit word, byte lane 0 at the lowest offset (20_memory R70). -/
def Memory.readWord (m : Memory) (a : Nat) : Word := m.readHalf (a + 2) ++ m.readHalf a

/-- Writes a 32-bit word, byte lane 0 at the lowest offset (20_memory R70). -/
def Memory.writeWord (m : Memory) (a : Nat) (v : Word) : Memory :=
  (m.writeHalf a (v.extractLsb' 0 16)).writeHalf (a + 2) (v.extractLsb' 16 16)

/-! ### The framebuffer -/

/-- Where the framebuffer lies in the window (20_memory R65). -/
def fbBase : Nat := 0x100

/-- Where MSTAGE lies (10_state R38). -/
def mstageBase : Nat := 0x200

/-- Where MRESULT lies (10_state R39). -/
def mresultBase : Nat := 0x400

/-- Where BATCH lies (10_state R40). -/
def batchBase : Nat := 0x800

/-- Where TEXT lies (10_state R41). -/
def textBase : Nat := 0xC00

/-- FB[i], the pixel word of index `i`: bytes 2i and 2i+1 of the 128-byte buffer (10_state R37, 20_memory R72). -/
def Memory.pixel (m : Memory) (i : Nat) : Half := m.readHalf (fbBase + 2 * i)

/-- FB[i] <- v (10_state R37, 20_memory R72). -/
def Memory.setPixel (m : Memory) (i : Nat) (v : Half) : Memory := m.writeHalf (fbBase + 2 * i) v

/-- Pixel words written one after the other: a later entry for the same index wins. -/
def Memory.setPixels (m : Memory) (ps : List (Nat × Half)) : Memory := ps.foldl (fun m p => m.setPixel p.1 p.2) m

/-- FB[i] of a state. -/
def State.fb (s : State) (i : Nat) : Half := s.mem.pixel i

/-- The pixel pipeline's one atomic FB update (20_memory R78, R80). -/
def State.putPixels (ps : List (Nat × Half)) (s : State) : State := { s with mem := s.mem.setPixels ps }

/-- The same word for all 64 pixels (42_display_pixels R142, R143). -/
def State.fillPixels (p : Half) (s : State) : State := s.putPixels ((List.range Config.pixelCount).map (fun i => (i, p)))

/-- The 128 bytes a flush sends, byte 2i the low byte of FB[i] (20_memory R72). -/
def State.fbBytes (s : State) : List Byte := (List.range (2 * Config.pixelCount)).map (fun j => s.mem.readByte (fbBase + j))

/-! ### Completing a command, and waiting for DEVICE -/

/-- The opcode of the latched command word, for ERR.OPCODE (60_exceptions R185). DEDUCED that PENDING.word holds it (log 15). -/
def State.latchedOp (s : State) : Byte := opField s.pending.word

/-- The end of a host command: ERR is written, PIPE is freed, and CMD_BUSY falls (30_encoding R91 steps 2 and 3; 60_exceptions R185). It
is the shared operation that records every error of a host command; nothing else changes (60_exceptions R192). -/
def State.complete (r : Report) (s : State) : State :=
  { s with err := errWord s.latchedOp r, pipe := .free, pending := { s.pending with valid := false } }

/-- A host command asks DEVICE and waits: PIPE stays with HOST, so CMD_BUSY stays 1 (30_encoding R91, 20_memory R78). -/
def State.await (r : DevRequest) (s : State) : State :=
  { s with pipe := .host, pending := { s.pending with valid := false }, devReq := some r }

/-- The end of a flushing command's execute step: FB shows what it wrote, PIPE stays with HOST, and its flush is to be requested next
(20_memory R76, R78, R80; log 6). -/
def State.flush (s : State) : State := { s with pipe := .host, pending := { s.pending with valid := false }, flushDue := true }

/-- flush() asks DEVICE: one DevWrite of the whole buffer as it stands (00_scope R17, 20_memory R58, R72). -/
def State.requestFlush (s : State) : State := { s with flushDue := false, devReq := some (.write s.fbBytes) }

/-- The request step of the operation that owns the pipeline, if its flush is due; at most one request is outstanding (20_memory R80,
R85; log 6). -/
def State.flushNext (s : State) : Option State := if s.flushDue && s.devReq.isNone then some s.requestFlush else none

/-- The outcome type of every meaning. -/
abbrev Out := Host.Outcome State Fault Refusal

/-- A command that ends at once. -/
def State.finishWith (r : Report) (s : State) : Out := .next (s.complete r)

/-- The lifecycle gate (41_display_lifecycle R122): StateError when not READY, before any operand is read. -/
def gated (s : State) (body : Out) : Out :=
  match s.lifecycle with
  | .ready => body
  | .uninit => s.finishWith (.stateError .uninit)
  | .closed => s.finishWith (.stateError .closed)

/-! ### Scroll completions -/

/-- post(tag, code, cause) (43_scroll R171). -/
def State.post (tag : Byte) (code : ErrCode) (cause : Byte) (s : State) : State :=
  { s with done := { valid := true, ovf := s.done.ovf || s.done.valid, code := code.bits, tag := tag, cause := cause } }

/-- abandon(tag): nothing, or a CANCELLED completion when CANCEL_REPORTS holds (43_scroll R162; log 10). -/
def State.abandon (cancelReports : Bool) (tag : Byte) (s : State) : State :=
  if cancelReports then s.post tag .cancelled 0 else s

/-! ### Latching a command -/

/-- The latch step of a CMD write when CMD_BUSY = 0 (30_encoding R91 step 1). -/
def State.latch (w : Word) (s : State) : State := { s with cmd := w, pending := { valid := true, word := w } }

end Sys2Proof.Machine
end

