-- ==== Sys2Proof/Machine/Bus.lean ====
section
/-!
DEFINITION. HOST's bus accesses to the register window (20_memory R56-R71) and the busy interlock (70_reset_and_hazards R210).
-/

namespace Sys2Proof.Machine

/-- The operand registers by name (10_state R23). -/
inductive OperandReg where
  | pos | colorRg | colorB | arg | mshape | rowlen | textcolRg | textcolB | backcolRg | backcolB | speed | textlen | hexlen
  | hexin0 | hexin1
  deriving DecidableEq, Repr

/-- The read-only registers by name (10_state R41). -/
inductive ReadOnlyReg where
  | id | err | resultRgb | result565 | hexout0 | hexout1 | scrollStatus | scrollPos
  deriving DecidableEq, Repr

/-- What stands at a word of the window (20_memory R64). -/
inductive Location where
  | readOnly (r : ReadOnlyReg)
  | cmd
  | status
  | scrollDone
  | operand (r : OperandReg)
  | fbwin
  | mstage
  | mresult
  | batch
  | text
  | reserved
  deriving DecidableEq, Repr

/-- The register part of the window map, 0x000 to 0x0FF (20_memory R64); every other word of it is reserved (R63). -/
def registerAt (offset : Nat) : Location :=
  match offset with
  | 0x000 => .readOnly .id
  | 0x004 => .cmd
  | 0x008 => .status
  | 0x00C => .readOnly .err
  | 0x010 => .operand .pos
  | 0x014 => .operand .colorRg
  | 0x018 => .operand .colorB
  | 0x01C => .operand .arg
  | 0x020 => .readOnly .resultRgb
  | 0x024 => .readOnly .result565
  | 0x028 => .operand .mshape
  | 0x02C => .operand .rowlen
  | 0x030 => .operand .textcolRg
  | 0x034 => .operand .textcolB
  | 0x038 => .operand .backcolRg
  | 0x03C => .operand .backcolB
  | 0x040 => .operand .speed
  | 0x044 => .operand .textlen
  | 0x048 => .operand .hexlen
  | 0x04C => .operand .hexin0
  | 0x050 => .operand .hexin1
  | 0x058 => .readOnly .hexout0
  | 0x05C => .readOnly .hexout1
  | 0x060 => .readOnly .scrollStatus
  | 0x064 => .scrollDone
  | 0x068 => .readOnly .scrollPos
  | _ => .reserved

/-- The window map (20_memory R63, R64). -/
def locate (offset : Nat) : Location :=
  if offset < 0x100 then registerAt offset
  else if offset < 0x180 then .fbwin
  else if offset < 0x200 then .reserved
  else if offset < 0x400 then .mstage
  else if offset < 0x500 then .mresult
  else if offset < 0x800 then .reserved
  else if offset < 0xC00 then .batch
  else if offset < 0xD00 then .text
  else .reserved

/-- An aligned 4-byte access: the only kind the bus moves (20_memory R67). -/
def accessAligned (offset : BitVec 12) (size : Nat) : Bool := decide (size = 4) && decide (offset.toNat % 4 = 0)

/-- The value of an operand register (10_state R23). -/
def OperandRegs.get (r : OperandReg) (o : OperandRegs) : Word :=
  match r with
  | .pos => o.pos
  | .colorRg => o.colorRg
  | .colorB => o.colorB
  | .arg => o.arg
  | .mshape => o.mshape
  | .rowlen => o.rowlen
  | .textcolRg => o.textcolRg
  | .textcolB => o.textcolB
  | .backcolRg => o.backcolRg
  | .backcolB => o.backcolB
  | .speed => o.speed
  | .textlen => o.textlen
  | .hexlen => o.hexlen
  | .hexin0 => o.hexin0
  | .hexin1 => o.hexin1

/-- An operand register stores all 32 bits as written (10_state R23). -/
def OperandRegs.set (r : OperandReg) (v : Word) (o : OperandRegs) : OperandRegs :=
  match r with
  | .pos => { o with pos := v }
  | .colorRg => { o with colorRg := v }
  | .colorB => { o with colorB := v }
  | .arg => { o with arg := v }
  | .mshape => { o with mshape := v }
  | .rowlen => { o with rowlen := v }
  | .textcolRg => { o with textcolRg := v }
  | .textcolB => { o with textcolB := v }
  | .backcolRg => { o with backcolRg := v }
  | .backcolB => { o with backcolB := v }
  | .speed => { o with speed := v }
  | .textlen => { o with textlen := v }
  | .hexlen => { o with hexlen := v }
  | .hexin0 => { o with hexin0 := v }
  | .hexin1 => { o with hexin1 := v }

/-- What a read-only register reads (10_state R24, R27, R35, R36, R50, R52). -/
def State.readOnlyValue (r : ReadOnlyReg) (s : State) : Word :=
  match r with
  | .id => Config.idValue
  | .err => s.err
  | .resultRgb => s.resultRgb
  | .result565 => s.result565
  | .hexout0 => s.hexout0
  | .hexout1 => s.hexout1
  | .scrollStatus => s.scrollStatusWord
  | .scrollPos => s.scrollPosWord

/-- The value a read of a location answers, none at a reserved one (20_memory R60, R62). -/
def State.readLocation (offset : Nat) (s : State) : Option Word :=
  match locate offset with
  | .readOnly r => some (s.readOnlyValue r)
  | .cmd => some s.cmd
  | .status => some s.statusWord
  | .scrollDone => some s.scrollDoneWord
  | .operand r => some (s.regs.get r)
  | .fbwin => some (s.mem.readWord offset)
  | .mstage => some (s.mem.readWord offset)
  | .mresult => some (s.mem.readWord offset)
  | .batch => some (s.mem.readWord offset)
  | .text => some (s.mem.readWord offset)
  | .reserved => none

/-- The bus's answer to a read (20_memory R59, R60, R62, R67). A read changes nothing else (R69). -/
def State.hostRead (offset : BitVec 12) (size : Nat) (s : State) : BusResponse :=
  if accessAligned offset size then
    match s.readLocation offset.toNat with
    | some v => .readOkay v
    | none => .buserr
  else .buserr

/-- The busy interlock: a write that CMD_BUSY = 1 drops sets HAZ and does nothing else (70_reset_and_hazards R210). -/
def State.interlocked (write : State → State) (s : State) : State := if s.cmdBusy then { s with haz := true } else write s

/-- A word of a staging memory is stored (20_memory R61). -/
def State.storeWord (offset : Nat) (v : Word) (s : State) : State := { s with mem := s.mem.writeWord offset v }

/-- What an aligned word write does, none at a reserved location (20_memory R61, R62; 10_state R41). -/
def State.writeLocation (offset : Nat) (v : Word) (s : State) : Option State :=
  match locate offset with
  | .readOnly _ => some s
  | .cmd => some (s.interlocked (State.latch v))
  | .status => some (s.writeStatus v)
  | .scrollDone => some (s.writeScrollDone v)
  | .operand r => some (s.interlocked (fun t => { t with regs := t.regs.set r v }))
  | .fbwin => some s
  | .mstage => some (s.interlocked (State.storeWord offset v))
  | .mresult => some s
  | .batch => some (s.interlocked (State.storeWord offset v))
  | .text => some (s.interlocked (State.storeWord offset v))
  | .reserved => none

/-- The state after a write, and its response: `buserr` changes no state (20_memory R59, R62, R67). -/
def State.hostWrite (offset : BitVec 12) (size : Nat) (v : Word) (s : State) : State :=
  if accessAligned offset size then
    match s.writeLocation offset.toNat v with
    | some t => { t with busResp := .writeOkay }
    | none => { s with busResp := .buserr }
  else { s with busResp := .buserr }

/-- One HOST bus access, one atomic step (20_memory R59, R68). -/
def State.hostAccess (a : BusAccess) (s : State) : State :=
  match a with
  | .read offset size => { s with busResp := s.hostRead offset size }
  | .write offset size v => s.hostWrite offset size v

end Sys2Proof.Machine
end

