-- ==== Sys2Proof/Machine/Device.lean ====
section
/-!
DEFINITION. DEVICE's answer to the outstanding request (60_exceptions R190, R198), and how a host command that waited for it goes on and
completes: INIT, CLOSE and the flushing pixel commands (41_display_lifecycle R126, R127; 42_display_pixels R150; 30_encoding R91). The
answer, the rest of the execution and the complete step are three atomic steps (log 5). How SEQ goes on is in Sequencer.lean.
-/

namespace Sys2Proof.Machine

/-! ### DEVICE's step -/

/-- Who makes which request: INIT DevOpen, CLOSE DevClose, the flushes DevWrite (60_exceptions R198). -/
def Pipe.makes (p : Pipe) (r : DevRequest) : Bool :=
  match p, r with
  | .host, _ => true
  | .seq _, .write _ => true
  | .seq _, .openDev => false
  | .seq _, .closeDev => false
  | .free, _ => false

/-- DEVICE answers the outstanding request `r`: the request is no longer outstanding, and the operation that made it may go on. Any
pairing of owner and request that the spec does not make is a state no run reaches (60_exceptions R198; log 14). -/
def State.answered (r : DevRequest) (a : DevAnswer) (s : State) : Out :=
  if s.pipe.makes r then .next { s with devReq := none, devAns := some { request := r, answer := a } } else .fault .misownedAnswer

/-- An answer event. With no request outstanding, or one withdrawn by a reset, there is nothing to answer and nothing happens
(60_exceptions R198, 70_reset_and_hazards R206; log 3). -/
def State.deviceAnswer (a : DevAnswer) (s : State) : Out :=
  match s.devReq with
  | none => .next s
  | some r => s.answered r a

/-! ### CMDENG goes on -/

/-- The report of a device answer (60_exceptions R183). -/
def DevAnswer.report : DevAnswer → Report
  | .ok => .success
  | .fail c => .deviceIo c

/-- The execution of the host command is over, with a report that its complete step will record (30_encoding R91 step 2). -/
def State.ends (r : Report) (s : State) : State := { s with outcome := some r }

/-- INIT after DevOpen's answer: READY on ok, UNINIT kept on failure (41_display_lifecycle R126). -/
def State.openAnswered (a : DevAnswer) (s : State) : State :=
  match a with
  | .ok => State.ends .success { s with devOpen := true, lifecycle := .ready }
  | .fail c => s.ends (.deviceIo c)

/-- CLOSE after DevClose's answer: CLOSED either way (41_display_lifecycle R127). -/
def State.closeAnswered (a : DevAnswer) (s : State) : State :=
  State.ends a.report { s with devOpen := false, lifecycle := .closed }

/-- A pixel command after its flush's answer: FB keeps what the command wrote either way (42_display_pixels R150). -/
def State.flushAnswered (a : DevAnswer) (s : State) : State := s.ends a.report

/-- CMDENG takes up DEVICE's answer and does the rest of the command's execution (30_encoding R91 step 2). -/
def State.resume (p : DevReply) (s : State) : State :=
  let t := { s with devAns := none }
  match p.request with
  | .openDev => t.openAnswered p.answer
  | .closeDev => t.closeAnswered p.answer
  | .write _ => t.flushAnswered p.answer

/-- The complete step of a command that waited for DEVICE (30_encoding R91 step 3). -/
def State.completeStep (r : Report) (s : State) : State := State.complete r { s with outcome := none }

end Sys2Proof.Machine
end

