-- ==== Sys2Proof/Machine/Operands.lean ====
section
/-!
DEFINITION. Every operand form of the commands (30_encoding R88-R100): fields are decoded to exact integers, checked, and only then
narrowed to the pipeline's own types.
-/

namespace Sys2Proof.Machine

/-! ### Colors -/

/-- A decoded color operand: three signed channels (30_encoding R97). -/
structure ColorOperand where
  r : Int
  g : Int
  b : Int
  deriving DecidableEq, Repr

/-- color(RGw, Bw) (40_codec R112, 30_encoding R90). -/
def colorOperand (rg b : Word) : ColorOperand :=
  { r := (rg.extractLsb' 0 16).toInt, g := (rg.extractLsb' 16 16).toInt, b := (b.extractLsb' 0 16).toInt }

/-- A channel in [0, 255] (30_encoding R97). -/
def channelValid (c : Int) : Bool := decide (0 ≤ c) && decide (c ≤ 255)

/-- validc(c) (40_codec R112). -/
def ColorOperand.valid (c : ColorOperand) : Bool := channelValid c.r && channelValid c.g && channelValid c.b

/-- A valid color's channels are 8-bit values (30_encoding R97). -/
def ColorOperand.narrow (c : ColorOperand) : Rgb := ⟨BitVec.ofInt 8 c.r, BitVec.ofInt 8 c.g, BitVec.ofInt 8 c.b⟩

/-- A color operand, if it is valid (40_codec R112). -/
def readColor (rg b : Word) : Option Rgb :=
  let c := colorOperand rg b
  if c.valid then some c.narrow else none

/-! ### Positions -/

/-- A valid position: x is the column, y the row, both in [0, 7] (00_scope R18). -/
structure Pos where
  x : Fin 8
  y : Fin 8
  deriving DecidableEq, Repr

/-- pos(w), first coordinate (42_display_pixels R136, 30_encoding R89). -/
def posX (w : Word) : Int := (w.extractLsb' 0 8).toInt

/-- pos(w), second coordinate (42_display_pixels R136, 30_encoding R89). -/
def posY (w : Word) : Int := (w.extractLsb' 8 8).toInt

/-- A coordinate in [0, 7] (30_encoding R96). -/
def coordValid (c : Int) : Bool := decide (0 ≤ c) && decide (c ≤ 7)

/-- A position operand, if it is valid (42_display_pixels R136). -/
def readPos (w : Word) : Option Pos :=
  if coordValid (posX w) && coordValid (posY w) then some ⟨Fin.ofNat 8 (posX w).toNat, Fin.ofNat 8 (posY w).toNat⟩ else none

/-! ### The other fields -/

/-- SETROT's operand: signed degrees (30_encoding R98). -/
def rotationDegrees (arg : Word) : Int := (arg.extractLsb' 0 16).toInt

/-- The rotation code d / 90 of a valid number of degrees (30_encoding R98). -/
def rotationCode (d : Int) : Option (BitVec 2) :=
  if d = 0 ∨ d = 90 ∨ d = 180 ∨ d = 270 then some (BitVec.ofInt 2 (d / 90)) else none

/-- SETLOWLIGHT's operand, ARG[0] (30_encoding R100). -/
def lowlightOperand (arg : Word) : Bool := arg.getLsbD 0

/-- SETPIXS's count, unsigned ARG[15:0] (30_encoding R99). -/
def batchCount (arg : Word) : Nat := (arg.extractLsb' 0 16).toNat

/-- UNPACK's operand, ARG[15:0] (30_encoding R100). -/
def packedOperand (arg : Word) : Half := arg.extractLsb' 0 16

/-- TEXTLEN.LEN, unsigned (30_encoding R99). -/
def textLength (textlen : Word) : Nat := (textlen.extractLsb' 0 16).toNat

/-- HEXLEN.LEN, unsigned (30_encoding R99). -/
def hexLength (hexlen : Word) : Nat := (hexlen.extractLsb' 0 8).toNat

/-- MSHAPE.ROWS, unsigned (30_encoding R99). -/
def shapeRows (mshape : Word) : Nat := (mshape.extractLsb' 0 8).toNat

/-- ROWLEN.LEN_i, unsigned (30_encoding R99, 10_state R31). -/
def rowLength (rowlen : Word) (i : Nat) : Nat := (rowlen.extractLsb' (4 * i) 4).toNat

/-- The staged grid is 8 rows of 8 (42_display_pixels R144). -/
def shapeValid (mshape rowlen : Word) : Bool :=
  decide (shapeRows mshape = 8) && (List.range 8).all (fun i => decide (rowLength rowlen i = 8))

/-- s[k], byte k of HEXIN (10_state R34). -/
def hexByte (r : OperandRegs) (k : Nat) : Byte :=
  if k < 4 then r.hexin0.extractLsb' (8 * k) 8 else r.hexin1.extractLsb' (8 * (k - 4)) 8

/-- The color staged in MSTAGE entry e, if it is valid (10_state R38). -/
def stagedColor (m : Memory) (e : Nat) : Option Rgb :=
  readColor (m.readWord (mstageBase + 8 * e)) (m.readWord (mstageBase + 8 * e + 4))

/-- The position of BATCH entry j, if it is valid (10_state R40). -/
def batchPos (m : Memory) (j : Nat) : Option Pos := readPos (m.readWord (batchBase + 16 * j))

/-- The color of BATCH entry j, if it is valid (10_state R40). -/
def batchColor (m : Memory) (j : Nat) : Option Rgb :=
  readColor (m.readWord (batchBase + 16 * j + 4)) (m.readWord (batchBase + 16 * j + 8))

/-- TEXT bytes 0 .. len-1 (10_state R41, 20_memory R70). -/
def textBytes (m : Memory) (len : Nat) : List Byte := (List.range len).map (fun k => m.readByte (textBase + k))

/-- The frame interval max(10, SPEED) (43_scroll R159). -/
def scrollInterval (speed : Word) : Word := if speed < Config.minInterval then Config.minInterval else speed

end Sys2Proof.Machine
end

