-- ==== Sys2Proof/Machine/Color.lean ====
section
/-!
DEFINITION. The pure functions of the color path (40_codec R106-R112, R115, R117): quantizers, packer, expanders, unpacker, low-light
scaler, write transform, hex digits.
-/

namespace Sys2Proof.Machine

/-- q5(c) = c >> 3 (40_codec R106). -/
def q5 (c : Byte) : BitVec 5 := (c >>> 3).setWidth 5

/-- q6(c) = c >> 2 (40_codec R106). -/
def q6 (c : Byte) : BitVec 6 := (c >>> 2).setWidth 6

/-- pack(r, g, b) = (q5(r) << 11) | (q6(g) << 5) | q5(b) (40_codec R107). -/
def packColor (c : Rgb) : Half :=
  ((q5 c.r).setWidth 16 <<< 11) ||| ((q6 c.g).setWidth 16 <<< 5) ||| (q5 c.b).setWidth 16

/-- e5(v) = (v << 3) | (v >> 2) (40_codec R108). -/
def e5 (v : BitVec 5) : Byte := (v.setWidth 8 <<< 3) ||| (v.setWidth 8 >>> 2)

/-- e6(v) = (v << 2) | (v >> 4) (40_codec R108). -/
def e6 (v : BitVec 6) : Byte := (v.setWidth 8 <<< 2) ||| (v.setWidth 8 >>> 4)

/-- unpack(p) (40_codec R109). -/
def unpackColor (p : Half) : Rgb := ⟨e5 (p.extractLsb' 11 5), e6 (p.extractLsb' 5 6), e5 (p.extractLsb' 0 5)⟩

/-- ll(c) = floor(c / 8) (40_codec R110). -/
def ll (c : Byte) : Byte := c >>> 3

/-- LL(r, g, b), channel by channel (40_codec R110). -/
def lowlightColor (c : Rgb) : Rgb := ⟨ll c.r, ll c.g, ll c.b⟩

/-- wt(c, lowlight), the pixel word a write of c stores (40_codec R111). -/
def writeTransform (c : Rgb) (lowlight : Bool) : Half := if lowlight then packColor (lowlightColor c) else packColor c

/-- The word {8'b0, b8, g8, r8} of RESULT_RGB and MRESULT (10_state R35, R39). -/
def rgbWord (c : Rgb) : Word := (0 : BitVec 8) ++ c.b ++ c.g ++ c.r

/-- hv(byte): the value of a hex digit, none for any other byte (40_codec R115). -/
def hexValue (b : Byte) : Option Nat :=
  let n := b.toNat
  if 0x30 ≤ n ∧ n ≤ 0x39 then some (n - 0x30)
  else if 0x41 ≤ n ∧ n ≤ 0x46 then some (n - 0x41 + 10)
  else if 0x61 ≤ n ∧ n ≤ 0x66 then some (n - 0x61 + 10)
  else none

/-- hd(v): the lowercase hex digit of v in 0..15 (40_codec R117). -/
def hexDigit (v : Nat) : Byte := if v < 10 then BitVec.ofNat 8 (0x30 + v) else BitVec.ofNat 8 (0x61 + (v - 10))

/-- The two digits of a channel, the high one first (40_codec R117). -/
def hexHigh (c : Byte) : Byte := hexDigit (c.toNat / 16)

/-- The low digit of a channel (40_codec R117). -/
def hexLow (c : Byte) : Byte := hexDigit (c.toNat % 16)

end Sys2Proof.Machine
end

