-- ==== Sys2Proof/Machine/Codec.lean ====
section
/-!
DEFINITION. The four ColorCodec commands (40_codec R113, R114, R116, R117). They have no lifecycle gate (41_display_lifecycle R124) and
make no device request (30_encoding R91).
-/

namespace Sys2Proof.Machine

/-- PACK (40_codec R113). Low-light never applies. -/
def execPack (s : State) : Out :=
  match readColor s.regs.colorRg s.regs.colorB with
  | none => s.finishWith (.validation .color 0)
  | some c => State.finishWith .success { s with result565 := (packColor c).setWidth 32 }

/-- UNPACK (40_codec R114). -/
def execUnpack (s : State) : Out :=
  State.finishWith .success { s with resultRgb := rgbWord (unpackColor (packedOperand s.regs.arg)) }

/-- The channel written by digits k and k+1 of the hex string, or the position of the first byte of the two that is no digit
(40_codec R116). -/
def hexChannel (r : OperandRegs) (k : Nat) : Except Nat Byte :=
  match hexValue (hexByte r k) with
  | none => .error k
  | some h =>
    match hexValue (hexByte r (k + 1)) with
    | none => .error (k + 1)
    | some l => .ok (BitVec.ofNat 8 (16 * h + l))

/-- HEX2RGB's parse: length, then '#', then the digits 1 to 6 in order; an error carries ERR.INDEX (40_codec R116, 60_exceptions R189). -/
def parseHex (r : OperandRegs) : Except Nat Rgb :=
  if hexLength r.hexlen ≠ 7 then .error 0
  else if hexByte r 0 ≠ 0x23 then .error 0
  else
    match hexChannel r 1 with
    | .error k => .error k
    | .ok cr =>
      match hexChannel r 3 with
      | .error k => .error k
      | .ok cg =>
        match hexChannel r 5 with
        | .error k => .error k
        | .ok cb => .ok ⟨cr, cg, cb⟩

/-- HEX2RGB (40_codec R116). On a bad digit ERR.INDEX is its position (log 25). -/
def execHex2rgb (s : State) : Out :=
  match parseHex s.regs with
  | .error k => s.finishWith (.validation .hex (BitVec.ofNat 8 k))
  | .ok c => State.finishWith .success { s with resultRgb := rgbWord c }

/-- RGB2HEX (40_codec R117): bytes 0 to 6 are "#rrggbb", byte 7 is 0, in little-endian lanes. -/
def execRgb2hex (s : State) : Out :=
  match readColor s.regs.colorRg s.regs.colorB with
  | none => s.finishWith (.validation .color 0)
  | some c =>
    State.finishWith .success
      { s with
        hexout0 := wordOfBytes 0x23 (hexHigh c.r) (hexLow c.r) (hexHigh c.g)
        hexout1 := wordOfBytes (hexLow c.g) (hexHigh c.b) (hexLow c.b) 0x00 }

end Sys2Proof.Machine
end

