-- ==== Sys2Proof/Machine/Lifecycle.lean ====
section
/-!
DEFINITION. The hint NOP, the lifecycle commands INIT and CLOSE, and the configuration commands SETROT and SETLOWLIGHT
(41_display_lifecycle R122-R129). INIT and CLOSE end their execute step waiting for DEVICE; what the answer does is in Device.lean.
-/

namespace Sys2Proof.Machine

/-- NOP (41_display_lifecycle R125): ERR (OK) and nothing else. -/
def execNop (s : State) : Out := s.finishWith .success

/-- INIT (41_display_lifecycle R126), up to its DevOpen request. -/
def execInit (s : State) : Out :=
  match s.lifecycle with
  | .uninit => .next (s.await .openDev)
  | .ready => s.finishWith (.stateError .ready)
  | .closed => s.finishWith (.stateError .closed)

/-- CLOSE (41_display_lifecycle R127), up to its DevClose request; in CLOSED it is a no-op that succeeds. -/
def execClose (s : State) : Out :=
  match s.lifecycle with
  | .closed => s.finishWith .success
  | .uninit => s.finishWith (.stateError .uninit)
  | .ready => .next (s.await .closeDev)

/-- SETROT (41_display_lifecycle R128). -/
def execSetrot (s : State) : Out :=
  gated s <|
    match rotationCode (rotationDegrees s.regs.arg) with
    | none => s.finishWith (.validation .rotation 0)
    | some k => State.finishWith .success { s with rot := k }

/-- SETLOWLIGHT (41_display_lifecycle R129). -/
def execSetlowlight (s : State) : Out :=
  gated s <| State.finishWith .success { s with lowlight := lowlightOperand s.regs.arg }

end Sys2Proof.Machine
end

