-- ==== Sys2Proof/Machine/Pipeline.lean ====
section
/-!
DEFINITION. The rotation engine and the pixel pipeline's write and read primitives (42_display_pixels R132-R138).
-/

namespace Sys2Proof.Machine

/-- rot(k, x, y) (42_display_pixels R132). -/
def rotate (k : BitVec 2) (p : Pos) : Pos :=
  match k.toNat with
  | 0 => p
  | 1 => ⟨7 - p.y, p.x⟩
  | 2 => ⟨7 - p.x, 7 - p.y⟩
  | _ => ⟨p.y, 7 - p.x⟩

/-- idx(px, py) = 8*py + px (42_display_pixels R133). -/
def pixelIndex (p : Pos) : Nat := 8 * p.y.val + p.x.val

/-- phys(x, y) under rotation k (42_display_pixels R134). -/
def physIndex (k : BitVec 2) (p : Pos) : Nat := pixelIndex (rotate k p)

/-- The logical position of grid entry e = 8*row + col (10_state R38, R39). -/
def posOfEntry (e : Nat) : Pos := ⟨Fin.ofNat 8 (e % 8), Fin.ofNat 8 (e / 8)⟩

/-- The 64 positions, row by row. -/
def allPositions : List Pos := (List.range Config.pixelCount).map posOfEntry

/-- The pixel words that putpix of a list of colored positions writes, with the ROT and LOWLIGHT in force (42_display_pixels R137). -/
def State.transform (s : State) (ws : List (Pos × Rgb)) : List (Nat × Half) :=
  ws.map (fun w => (physIndex s.rot w.1, writeTransform w.2 s.lowlight))

/-- putpix for each entry of a list, in order, as one FB update (42_display_pixels R137, 20_memory R78). -/
def State.putColors (ws : List (Pos × Rgb)) (s : State) : State := s.putPixels (s.transform ws)

/-- putpix for every position of a grid (42_display_pixels R144). -/
def State.putGrid (g : Pos → Rgb) (s : State) : State := s.putColors (allPositions.map (fun p => (p, g p)))

/-- getpix(x, y) (42_display_pixels R138): low-light never applies to a read. -/
def State.getPixel (s : State) (p : Pos) : Rgb := unpackColor (s.fb (physIndex s.rot p))

end Sys2Proof.Machine
end

