-- ==== Sys2Proof/Machine/Pixels.lean ====
section
/-!
DEFINITION. The nine pixel commands (42_display_pixels R139-R147). Each begins with the gate, validates every operand, then writes FB
and ends its execute step with its one flush due (R149, 20_memory R80); GETPIX and GETMATRIX write no pixel and make no flush.
-/

namespace Sys2Proof.Machine

/-- SETPIX (42_display_pixels R139): the position is checked before the color. -/
def execSetpix (s : State) : Out :=
  gated s <|
    match readPos s.regs.pos with
    | none => s.finishWith (.validation .position 0)
    | some p =>
      match readColor s.regs.colorRg s.regs.colorB with
      | none => s.finishWith (.validation .color 0)
      | some c => .next (s.putColors [(p, c)]).flush

/-- GETPIX (42_display_pixels R140). -/
def execGetpix (s : State) : Out :=
  gated s <|
    match readPos s.regs.pos with
    | none => s.finishWith (.validation .position 0)
    | some p => State.finishWith .success { s with resultRgb := rgbWord (s.getPixel p) }

/-- One BATCH entry: its position and color, or the first check that fails (42_display_pixels R141). -/
def batchEntry (m : Memory) (j : Nat) : Except ValidationCause (Pos × Rgb) :=
  match batchPos m j with
  | none => .error .position
  | some p =>
    match batchColor m j with
    | none => .error .color
    | some c => .ok (p, c)

/-- Entries checked in order: all of them, or the first bad one's report, INDEX its number (42_display_pixels R141, R144). -/
def checkEntries {α : Type} (entry : Nat → Except ValidationCause α) : List Nat → Except Report (List α)
  | [] => .ok []
  | j :: js =>
    match entry j with
    | .error c => .error (.validation c (BitVec.ofNat 8 j))
    | .ok a =>
      match checkEntries entry js with
      | .error r => .error r
      | .ok rest => .ok (a :: rest)

/-- SETPIXS (42_display_pixels R141): every entry is validated before any write; entries are written in index order; one flush. -/
def execSetpixs (s : State) : Out :=
  gated s <|
    let n := batchCount s.regs.arg
    if n > Config.batchMax then s.finishWith (.validation .length 0)
    else
      match checkEntries (batchEntry s.mem) (List.range n) with
      | .error r => s.finishWith r
      | .ok ws => .next (s.putColors ws).flush

/-- FILL (42_display_pixels R142). -/
def execFill (s : State) : Out :=
  gated s <|
    match readColor s.regs.colorRg s.regs.colorB with
    | none => s.finishWith (.validation .color 0)
    | some c => .next (s.fillPixels (writeTransform c s.lowlight)).flush

/-- CLEAR (42_display_pixels R143): fill(OFF). -/
def execClear (s : State) : Out :=
  gated s <| .next (s.fillPixels (writeTransform ⟨0, 0, 0⟩ s.lowlight)).flush

/-- One MSTAGE entry: its logical position and color (42_display_pixels R144). -/
def stagedEntry (m : Memory) (e : Nat) : Except ValidationCause (Pos × Rgb) :=
  match stagedColor m e with
  | none => .error .color
  | some c => .ok (posOfEntry e, c)

/-- SETMATRIX (42_display_pixels R144): the shape first, then every color, then every write, one flush. -/
def execSetmatrix (s : State) : Out :=
  gated s <|
    if shapeValid s.regs.mshape s.regs.rowlen then
      match checkEntries (stagedEntry s.mem) (List.range Config.pixelCount) with
      | .error r => s.finishWith r
      | .ok ws => .next (s.putColors ws).flush
    else s.finishWith (.validation .shape 0)

/-- MRESULT[e] <- the stored color of logical position (e mod 8, e div 8), for every e (10_state R39, 42_display_pixels R145). -/
def State.storeMatrix (s : State) : State :=
  { s with
    mem := (List.range Config.pixelCount).foldl
      (fun m e => m.writeWord (mresultBase + 4 * e) (rgbWord (s.getPixel (posOfEntry e)))) s.mem }

/-- GETMATRIX (42_display_pixels R145). -/
def execGetmatrix (s : State) : Out := gated s <| s.storeMatrix.finishWith .success

/-- The mirror of a column (42_display_pixels R146). -/
def mirrorColumns (p : Pos) : Pos := ⟨7 - p.x, p.y⟩

/-- The mirror of a row (42_display_pixels R147). -/
def mirrorRows (p : Pos) : Pos := ⟨p.x, 7 - p.y⟩

/-- FLIPH (42_display_pixels R146): read the whole matrix, write the mirrored one through the pipeline, one flush. -/
def execFliph (s : State) : Out := gated s <| .next (s.putGrid (fun p => s.getPixel (mirrorColumns p))).flush

/-- FLIPV (42_display_pixels R147). -/
def execFlipv (s : State) : Out := gated s <| .next (s.putGrid (fun p => s.getPixel (mirrorRows p))).flush

end Sys2Proof.Machine
end

