-- ==== Sys2Proof/Machine/Scroll.lean ====
section
/-!
DEFINITION. The text filter, the scroll bitmap and its window, and the SHOWMSG command (43_scroll R152-R162).
-/

namespace Sys2Proof.Machine

/-- supported(b): the 39 characters of the font (43_scroll R152). -/
def supported (b : Byte) : Bool :=
  let n := b.toNat
  decide (n = 0x20) || decide (n = 0x21) || (decide (0x30 ≤ n) && decide (n ≤ 0x39)) || decide (n = 0x3F) ||
    (decide (0x41 ≤ n) && decide (n ≤ 0x5A))

/-- upper(b) (43_scroll R155). -/
def upper (b : Byte) : Byte := if 0x61 ≤ b.toNat ∧ b.toNat ≤ 0x7A then b - 0x20 else b

/-- filter(s) (43_scroll R155). -/
def filterText (t : List Byte) : List Byte := (t.map upper).filter supported

/-- TW = 16 + 6n, the width of the scroll bitmap (43_scroll R156, 90_conflicts C1). -/
def bitmapWidth (n : BitVec 9) : BitVec 16 := 16 + 6 * n.setWidth 16

/-- colc: the color of bitmap column c, row y, over a font (43_scroll R157). -/
def columnColor (font : Byte → Fin 5 → Byte) (t : List Byte) (n : Nat) (tc bc : Rgb) (c y : Nat) : Rgb :=
  if c < 8 ∨ 8 + 6 * n ≤ c then bc
  else
    if h : (c - 8) % 6 < 5 then
      if (font (t.getD ((c - 8) / 6) 0) ⟨(c - 8) % 6, h⟩).getLsbD y then tc else bc
    else bc

/-- frame(o): the color of the 8x8 window at scan offset o at position (x, y) (43_scroll R158). -/
def frameColor (font : Byte → Fin 5 → Byte) (k : ScrollCall) (o : Nat) (p : Pos) : Rgb :=
  columnColor font k.text k.n.toNat k.tcolor k.bcolor (o + p.x.val) p.y.val

/-- offer(R): the hand-over of a non-empty request to SEQ, by SEQ_STATE (43_scroll R161). -/
def State.offer (cancelReports : Bool) (r : ScrollCall) (s : State) : State :=
  match s.sq.phase with
  | .idle => { s with sq := { s.sq with req := r, reqValid := true, phase := .start } }
  | .run =>
    let t := s.abandon cancelReports s.sq.cur.tag
    { t with
      sq := { t.sq with
        tickPending := false, tcount := 0, req := r, reqValid := true, settleCnt := Config.settle, phase := .settle } }
  | .settle =>
    let t := s.abandon cancelReports s.sq.req.tag
    { t with sq := { t.sq with req := r, reqValid := true } }
  | .start =>
    let t := s.abandon cancelReports s.sq.req.tag
    { t with sq := { t.sq with req := r, reqValid := true } }
  | .finish =>
    let t := if s.sq.reqValid then s.abandon cancelReports s.sq.req.tag else s
    { t with sq := { t.sq with req := r, reqValid := true } }

/-- The tag of the next accepted call: (LAST_TAG + 1) mod 256 (43_scroll R160). -/
def Sequencer.nextTag (q : Sequencer) : Byte := q.lastTag + 1

/-- SHOWMSG once its operands are valid: a tag is given; an empty text posts OK at once, any other text is offered to SEQ
(43_scroll R160, R176). -/
def State.acceptMessage (cancelReports : Bool) (len : Nat) (tc bc : Rgb) (s : State) : State :=
  let t := filterText (textBytes s.mem len)
  let tag := s.sq.nextTag
  let s1 := { s with sq := { s.sq with lastTag := tag } }
  if t = [] then s1.post tag .ok 0
  else
    s1.offer cancelReports
      { text := t, n := BitVec.ofNat 9 t.length, tcolor := tc, bcolor := bc, interval := scrollInterval s.regs.speed, tag := tag }

/-- SHOWMSG (43_scroll R160): the length, then the text color, then the background color; no lifecycle gate (41_display_lifecycle R124).
On a bad background color ERR.INDEX is 1 (log 25). -/
def execShowmsg (s : State) : Out :=
  let len := textLength s.regs.textlen
  if len > Config.textMax then s.finishWith (.validation .length 0)
  else
    match readColor s.regs.textcolRg s.regs.textcolB with
    | none => s.finishWith (.validation .color 0)
    | some tc =>
      match readColor s.regs.backcolRg s.regs.backcolB with
      | none => s.finishWith (.validation .color 1)
      | some bc => (s.acceptMessage Config.cancelReports len tc bc).finishWith .success

end Sys2Proof.Machine
end

