-- ==== Sys2Proof/Machine/Dispatch.lean ====
section
/-!
DEFINITION. The execute step of a decoded command (30_encoding R91 step 2), one arm per command.
-/

namespace Sys2Proof.Machine

def exec (i : Instr) (s : State) : Host.Outcome State Fault Refusal :=
  match i with
  -- 41_display_lifecycle.md
  | .nop => Sys2Proof.Machine.execNop s
  | .init => Sys2Proof.Machine.execInit s
  | .close => Sys2Proof.Machine.execClose s
  | .setrot => Sys2Proof.Machine.execSetrot s
  | .setlowlight => Sys2Proof.Machine.execSetlowlight s
  -- 42_display_pixels.md
  | .setpix => Sys2Proof.Machine.execSetpix s
  | .getpix => Sys2Proof.Machine.execGetpix s
  | .setpixs => Sys2Proof.Machine.execSetpixs s
  | .fill => Sys2Proof.Machine.execFill s
  | .clear => Sys2Proof.Machine.execClear s
  | .setmatrix => Sys2Proof.Machine.execSetmatrix s
  | .getmatrix => Sys2Proof.Machine.execGetmatrix s
  | .fliph => Sys2Proof.Machine.execFliph s
  | .flipv => Sys2Proof.Machine.execFlipv s
  -- 40_codec.md
  | .pack => Sys2Proof.Machine.execPack s
  | .unpack => Sys2Proof.Machine.execUnpack s
  | .hex2rgb => Sys2Proof.Machine.execHex2rgb s
  | .rgb2hex => Sys2Proof.Machine.execRgb2hex s
  -- 43_scroll.md
  | .showmsg => Sys2Proof.Machine.execShowmsg s

end Sys2Proof.Machine
end

