-- ==== Sys2Proof/Machine/Sequencer.lean ====
section
/-!
DEFINITION. The scroll sequencer SEQ: the tick, and the steps START, TAKE, FRAME and FINISH (43_scroll R163-R170), START, FRAME and FINISH
as three steps: up to their update of FB, the request of its flush, and from DEVICE's answer on (20_memory R80, 60_exceptions R190; log 5,
log 6).
-/

namespace Sys2Proof.Machine

/-- A TIMEBASE tick in RUN (43_scroll R163). -/
def Sequencer.runTick (q : Sequencer) : Sequencer :=
  if q.tcount + 1 = q.cur.interval then { q with tcount := 0, tickPending := true } else { q with tcount := q.tcount + 1 }

/-- A TIMEBASE tick in SETTLE (43_scroll R163). -/
def Sequencer.settleTick (q : Sequencer) : Sequencer :=
  if q.settleCnt - 1 = 0 then { q with settleCnt := 0, phase := .start } else { q with settleCnt := q.settleCnt - 1 }

/-- A TIMEBASE tick, whoever owns the pipeline (43_scroll R163, 60_exceptions R196). -/
def State.tick (s : State) : State :=
  match s.sq.phase with
  | .run => { s with sq := s.sq.runTick }
  | .settle => { s with sq := s.sq.settleTick }
  | .idle => s
  | .start => s
  | .finish => s

/-- A SEQ operation has updated FB: PIPE = SEQ(kind), and its flush is to be requested next (43_scroll R164, R166, R169; 20_memory R80;
log 6). -/
def State.seqFlush (kind : SeqKind) (s : State) : State := { s with pipe := .seq kind, flushDue := true }

/-- A SEQ operation that ends the waiting call: its completion, REQ cleared, IDLE, PIPE freed (43_scroll R164, R170). -/
def State.endRequest (code : ErrCode) (cause : Byte) (s : State) : State :=
  let t := s.post s.sq.req.tag code cause
  { t with sq := { t.sq with reqValid := false, phase := .idle }, pipe := .free }

/-- A SEQ operation that ends the running call with an error: its completion, IDLE, PIPE freed (43_scroll R166, R170). -/
def State.endRunning (code : ErrCode) (cause : Byte) (s : State) : State :=
  let t := s.post s.sq.cur.tag code cause
  { t with sq := { t.sq with phase := .idle }, pipe := .free }

/-- The end of FINISH: the completion, then START if a request waits and IDLE if not (43_scroll R169). -/
def State.endFinish (code : ErrCode) (cause : Byte) (s : State) : State :=
  let t := s.post s.sq.cur.tag code cause
  { t with sq := { t.sq with phase := if t.sq.reqValid then .start else .idle }, pipe := .free }

/-- START, up to its clear (43_scroll R164). -/
def State.startOp (s : State) : State :=
  if s.lifecycle ≠ .ready then s.endRequest .state (lcause s.lifecycle)
  else (s.fillPixels 0).seqFlush .start

/-- TAKE: the interval after the last frame stops the timer (43_scroll R165). -/
def State.takeStep (s : State) : State := { s with sq := { s.sq with tickPending := false, phase := .finish } }

/-- FRAME, up to its update of FB (43_scroll R166): TICK_PENDING is cleared as it begins, also when the gate fails. -/
def State.frameOp (s : State) : State :=
  let t := { s with sq := { s.sq with tickPending := false } }
  if t.lifecycle ≠ .ready then t.endRunning .state (lcause t.lifecycle)
  else (t.putGrid (frameColor Config.font t.sq.cur t.sq.offset.toNat)).seqFlush .frame

/-- FINISH, up to its clear (43_scroll R169). -/
def State.finishOp (s : State) : State :=
  if s.lifecycle ≠ .ready then s.endFinish .state (lcause s.lifecycle)
  else (s.fillPixels 0).seqFlush .finish

/-- START after its clear's answer (43_scroll R164). -/
def State.startAnswered (a : DevAnswer) (s : State) : State :=
  match a with
  | .ok =>
    { s with
      sq := { s.sq with
        cur := s.sq.req, tw := bitmapWidth s.sq.req.n, offset := 0, reqValid := false, tcount := 0, tickPending := false, phase := .run }
      pipe := .free }
  | .fail c => s.endRequest .deviceIo c

/-- FRAME after its write's answer (43_scroll R166). -/
def State.frameAnswered (a : DevAnswer) (s : State) : State :=
  match a with
  | .ok => { s with sq := { s.sq with offset := s.sq.offset + 1 }, pipe := .free }
  | .fail c => s.endRunning .deviceIo c

/-- FINISH after its clear's answer (43_scroll R169). -/
def State.finishAnswered (a : DevAnswer) (s : State) : State :=
  match a with
  | .ok => s.endFinish .ok 0
  | .fail c => s.endFinish .deviceIo c

/-- SEQ takes up DEVICE's answer and ends the operation that waited for it (43_scroll R164, R166, R169). -/
def State.seqResume (kind : SeqKind) (a : DevAnswer) (s : State) : State :=
  let t := { s with devAns := none }
  match kind with
  | .start => t.startAnswered a
  | .frame => t.frameAnswered a
  | .finish => t.finishAnswered a

/-- The step SEQ is ready to begin, if any: START, FRAME and FINISH need PIPE = FREE, TAKE does not (43_scroll R164-R169). -/
def State.seqBegin (s : State) : Option State :=
  match s.sq.phase with
  | .start => if s.sq.reqValid ∧ s.pipe = .free then some s.startOp else none
  | .run =>
    if s.sq.tickPending then
      if s.sq.offset < s.sq.tw then (if s.pipe = .free then some s.frameOp else none) else some s.takeStep
    else none
  | .finish => if s.pipe = .free then some s.finishOp else none
  | .idle => none
  | .settle => none

/-- The step SEQ is ready to make, if any: the rest of its operation once DEVICE has answered, the request of a flush that is due, else a
step it can begin. -/
def State.seqNext (s : State) : Option State :=
  match s.pipe, s.devAns with
  | .seq k, some p => some (s.seqResume k p.answer)
  | .seq _, none =>
    match s.flushNext with
    | some t => some t
    | none => s.seqBegin
  | .host, _ => s.seqBegin
  | .free, _ => s.seqBegin

/-- SEQ has a step to make. -/
def State.seqReady (s : State) : Bool := s.seqNext.isSome

end Sys2Proof.Machine
end

