-- ==== Sys2Proof/Machine/Events.lean ====
section
/-!
DEFINITION. Who moves next and what its move is (60_exceptions R190, 20_memory R79), CMDENG's steps with the decode checks of the execute
step (30_encoding R91-R94), RESET (70_reset_and_hazards R204-R206), and how a command is placed for the next step.
-/

namespace Sys2Proof.Machine

/-- CMDENG executes the latched word: an illegal word completes with ILLEGAL and changes only ERR (30_encoding R91, R92, R94). -/
def State.execute (s : State) : Out :=
  match decode s.pending.word with
  | .ok i => exec i s
  | .error e => s.finishWith (.illegalCommand e)

/-- The step CMDENG is ready to make, if any: execute a latched command when PIPE is free; while a command is in progress, request a
flush that is due, go on once DEVICE has answered, and complete once the execution is over (30_encoding R91 steps 2 and 3, 20_memory R80;
log 5, log 6). -/
def State.cmdengNext (s : State) : Option Out :=
  match s.pipe with
  | .free => if s.pending.valid then some s.execute else none
  | .host =>
    match s.outcome with
    | some r => some (.next (s.completeStep r))
    | none =>
      match s.devAns with
      | some p => some (.next (s.resume p))
      | none => s.flushNext.map .next
  | .seq _ => none

/-- CMDENG has a step to make. -/
def State.cmdengReady (s : State) : Bool := s.cmdengNext.isSome

/-- CMDENG is picked: it makes its step if it has one (log 4). -/
def State.cmdengStep (s : State) : Out :=
  match s.cmdengNext with
  | some o => o
  | none => .next s

/-- SEQ is picked: it makes its step if it has one (log 4). -/
def State.seqStep (s : State) : Out :=
  match s.seqNext with
  | some t => .next t
  | none => .next s

/-- RESET: every piece of state to its reset value, in one step; what the environment is still going to do, and the number of ARB draws
made, are not the block's state (70_reset_and_hazards R204-R206; log 20). -/
def State.resetStep (s : State) : State := { State.reset with agenda := s.agenda, arbCount := s.arbCount }

/-- The block's own move when the environment does nothing: CMDENG's step, SEQ's step, or, when both are ready, the one ARB picks
(20_memory R79; log 2). With neither ready the block waits. -/
def State.ownStep (s : State) : Out :=
  if s.cmdengReady then
    if s.seqReady then
      let t := { s with arbCount := s.arbCount + 1 }
      if Config.arb s.arbCount then t.cmdengStep else t.seqStep
    else s.cmdengStep
  else s.seqStep

/-- One event (60_exceptions R190). -/
def State.deliver (e : Event) (s : State) : Out :=
  match e with
  | .host a => .next (s.hostAccess a)
  | .cmdeng => s.cmdengStep
  | .seq => s.seqStep
  | .tick => .next s.tick
  | .answer a => s.deviceAnswer a
  | .reset => .next s.resetStep

/-- The next atomic step: the agenda's first event, or the block's own move when the agenda is empty (60_exceptions R190; log 1). -/
def State.move (s : State) : Out :=
  match s.agenda with
  | [] => s.ownStep
  | e :: rest => State.deliver e { s with agenda := rest }

/-- A command placed as HOST's CMD write leaves it: latched, with the pipeline free and nothing outstanding or half done; CMDENG is
picked by the agenda unless it moves next anyhow (30_encoding R91 step 1; log 12). -/
def State.placeCommand (w : Word) (s : State) : State :=
  let t := { s.latch w with pipe := .free, flushDue := false, devReq := none, devAns := none, outcome := none }
  if t.agenda = [] ∧ t.seqReady = false then t else { t with agenda := .cmdeng :: t.agenda }

end Sys2Proof.Machine
end

