-- ==== Sys2Proof/Machine/Step.lean ====
section
/-!
DEFINITION. One step of the machine, and where a command stands so that the next step runs it.
-/

namespace Sys2Proof.Machine

/-- One atomic step (60_exceptions R190). -/
def step (s : State) : Host.Outcome State Fault Refusal := s.move

/-- The command whose opcode-table bits are `w` stored where `step` takes its next command: PENDING (10_state R47, 30_encoding R91; log 12). -/
def State.withFetchWord (s : State) (nbits w : Nat) : State := s.placeCommand (BitVec.ofNat 32 (w % 2 ^ nbits))

end Sys2Proof.Machine
end

