-- ==== Sys2Proof/Safety.lean ====
section
/-!
DEFINITION. What counts as a safe state, and the vocabulary the claims are stated in: operands as values, the shapes in which a
command leaves the machine, and a scheduled animation.
-/

namespace Sys2Proof.Machine

/-! ### Safe states -/

/-- An offset at which a byte of memory stands: FBWIN, MSTAGE, MRESULT, BATCH or TEXT (20_memory R64). -/
def memoryOffset (a : Nat) : Prop := (0x100 ≤ a ∧ a < 0x180) ∨ (0x200 ≤ a ∧ a < 0x500) ∨ (0x800 ≤ a ∧ a < 0xD00)

/-- A scroll call as SHOWMSG makes it (43_scroll R155, R159, R160): between 1 and TEXT_MAX supported characters, interval at least 10. -/
structure ScrollCall.Sound (k : ScrollCall) : Prop where
  length : k.text.length = k.n.toNat
  nonempty : 1 ≤ k.n.toNat
  bounded : k.n.toNat ≤ 256
  characters : ∀ b ∈ k.text, supported b = true
  interval : 10 ≤ k.interval.toNat

/-- The running call and its counters (10_state R49, 60_exceptions R197). -/
structure Sequencer.Animating (q : Sequencer) : Prop where
  call : q.cur.Sound
  width : q.tw.toNat = 16 + 6 * q.cur.n.toNat
  offset : q.offset.toNat ≤ q.tw.toNat

/-- What the sequencer record holds in each SEQ_STATE (10_state R49; 43_scroll R161-R169). -/
def Sequencer.Sound (q : Sequencer) : Prop :=
  match q.phase with
  | .idle => q.reqValid = false
  | .start => q.reqValid = true ∧ q.req.Sound
  | .settle => q.reqValid = true ∧ q.req.Sound ∧ 1 ≤ q.settleCnt.toNat ∧ q.settleCnt.toNat ≤ 1000
  | .run => q.reqValid = false ∧ q.Animating ∧ q.tcount.toNat < q.cur.interval.toNat
  | .finish => q.Animating ∧ (q.reqValid = true → q.req.Sound)

/-- A report that an execution which waited for DEVICE can end with: its answer's (60_exceptions R183). -/
def Report.FromDevice (r : Report) : Prop := r = .success ∨ ∃ c, r = .deviceIo c

/-- The lifecycle state in which a host command makes a request, and that a write carries the framebuffer as it stands (41_display_lifecycle
R122, R126, R127; 20_memory R72). -/
def DevRequest.FromHost (r : DevRequest) (s : State) : Prop :=
  match r with
  | .openDev => s.lifecycle = .uninit
  | .closeDev => s.lifecycle = .ready
  | .write b => s.lifecycle = .ready ∧ b = s.fbBytes

/-- What stands while a SEQ operation waits: READY, and the SEQ_STATE of the operation (43_scroll R164, R166, R169). -/
def SeqKind.Stands (k : SeqKind) (s : State) : Prop :=
  s.lifecycle = .ready ∧
  match k with
  | .start => s.sq.phase = .start
  | .frame => s.sq.phase = .run ∧ s.sq.offset < s.sq.tw
  | .finish => s.sq.phase = .finish

/-- The owner of the pipeline and how far its operation is belong together: a flush due, a request outstanding, an answer not yet taken up, or
an execution that is over and not yet completed, one at a time; and an outstanding write carries the framebuffer as it stands (20_memory
R78, R80, R85; 30_encoding R91; 60_exceptions R190, R198, R199). -/
def State.PipelineSound (s : State) : Prop :=
  match s.pipe, s.flushDue, s.devReq, s.devAns, s.outcome with
  | .free, false, none, none, none => True
  | .host, true, none, none, none => s.pending.valid = false ∧ s.lifecycle = .ready
  | .host, false, some r, none, none => s.pending.valid = false ∧ r.FromHost s
  | .host, false, none, some p, none => s.pending.valid = false ∧ p.request.FromHost s
  | .host, false, none, none, some r => s.pending.valid = false ∧ r.FromDevice
  | .seq k, true, none, none, none => k.Stands s
  | .seq k, false, some r, none, none => r = .write s.fbBytes ∧ k.Stands s
  | .seq k, false, none, some p, none => p.request = .write s.fbBytes ∧ k.Stands s
  | _, _, _, _, _ => False

/-- The bits of the read-only registers that the spec says read zero, and the codes it says are never produced (10_state R27, R35, R36;
60_exceptions R179). -/
structure State.RegistersSound (s : State) : Prop where
  err : s.err.extractLsb' 4 4 = 0
  errCode : (s.err.extractLsb' 0 4).toNat ≤ 4
  rgb : s.resultRgb.extractLsb' 24 8 = 0
  packed : s.result565.extractLsb' 16 16 = 0
  hex : s.hexout1.extractLsb' 24 8 = 0
  doneCode : s.done.code = 0 ∨ s.done.code = 2 ∨ s.done.code = 3

/-- A safe state: what holds at reset and after every step. -/
structure State.Safe (s : State) : Prop where
  canonical : s.mem.wf
  mapped : ∀ c ∈ s.mem, memoryOffset c.1
  handle : s.devOpen = decide (s.lifecycle = .ready)
  latched : s.cmd = s.pending.word
  registers : s.RegistersSound
  pipeline : s.PipelineSound
  sequencer : s.sq.Sound

/-! ### The vocabulary of the claims -/

/-- The latched word is the command's own (10_state R47, 30_encoding R87). -/
def Latched (i : Instr) (s : State) : Prop := s.pending.word = encode i

/-- The ERR word by its fields (10_state R27). -/
def errValue (index op cause code : Nat) : Word := BitVec.ofNat 32 (index * 2 ^ 24 + op * 2 ^ 16 + cause * 2 ^ 8 + code)

/-- A color operand holds the valid color `c` (30_encoding R90, R97): each channel field is the 8-bit channel, its upper byte 0. -/
def HoldsColor (rg b : Word) (c : Rgb) : Prop :=
  rg = (0 : BitVec 8) ++ c.g ++ (0 : BitVec 8) ++ c.r ∧ b.extractLsb' 0 16 = (0 : BitVec 8) ++ c.b

/-- A color operand with a channel out of range: an upper byte that is not 0 (30_encoding R97). -/
def BadColor (rg b : Word) : Prop := rg.extractLsb' 8 8 ≠ 0 ∨ rg.extractLsb' 24 8 ≠ 0 ∨ b.extractLsb' 8 8 ≠ 0

/-- A position operand holds the valid position `p` (30_encoding R89, R96). -/
def HoldsPos (w : Word) (p : Pos) : Prop :=
  w.extractLsb' 0 8 = BitVec.ofNat 8 p.x.val ∧ w.extractLsb' 8 8 = BitVec.ofNat 8 p.y.val

/-- A position operand out of range: X[7:3] or Y[7:3] is not 0 (30_encoding R96). -/
def BadPos (w : Word) : Prop := w.extractLsb' 3 5 ≠ 0 ∨ w.extractLsb' 11 5 ≠ 0

/-- How a command that ends at once leaves the machine: ERR, PIPE and PENDING.valid written, everything else as before
(30_encoding R91 step 3, 60_exceptions R185). -/
def Ended (s : State) (e : Word) : State := { s with err := e, pipe := .free, pending := { s.pending with valid := false } }

/-- How a command that asks DEVICE leaves the machine: PIPE, PENDING.valid and the request written, everything else as before
(30_encoding R91 step 2). -/
def Waiting (s : State) (r : DevRequest) : State :=
  { s with pipe := .host, pending := { s.pending with valid := false }, devReq := some r }

/-- How a flushing command leaves the machine when memory becomes `m`: PIPE with HOST, its flush due and not yet requested
(20_memory R76, R80; log 6). -/
def Flushing (s : State) (m : Memory) : State :=
  { s with mem := m, pipe := .host, pending := { s.pending with valid := false }, flushDue := true }

/-- A flush that was due has been requested: one write of the 128 framebuffer bytes as they stand, and nothing else changed
(20_memory R58, R72, R76). -/
def Requested (s : State) : State :=
  { s with flushDue := false, devReq := some (.write ((List.range 128).map (fun j => s.mem.readByte (0x100 + j)))) }

/-- The step in which event `e` comes next at state `s`: afterwards the rest of the agenda is what it was. -/
def Next (e : Event) (s : State) : Out := step { s with agenda := e :: s.agenda }

/-- DEVICE has answered the request `r`: it is no longer outstanding, and nothing else has changed (60_exceptions R190, R198). -/
def Delivered (s : State) (r : DevRequest) (a : DevAnswer) : State :=
  { s with devReq := none, devAns := some { request := r, answer := a } }

/-- A host command has taken up the answer and its execution is over with the report `r` (30_encoding R91 step 2). -/
def Resumed (s : State) (r : Report) : State := { s with devAns := none, outcome := some r }

/-- A host command that waited has completed with ERR `e` (30_encoding R91 step 3). -/
def Completed (s : State) (e : Word) : State := Ended { s with outcome := none } e

/-- DEVICE's answer to the request `r` of a host command is a step of its own, which changes nothing a program can read
(60_exceptions R190, R198; log 5). -/
def AnswerIsDelivered (r : DevRequest) (s : State) : Prop :=
  s.devReq = some r → ∀ a, Next (.answer a) s = .next (Delivered s r a)

/-- The complete step of a command that waited for DEVICE: ERR from the report, PIPE free, CMD_BUSY 0 (30_encoding R91 step 3,
60_exceptions R185; log 5). -/
def CompletesApart (i : Instr) (s : State) : Prop :=
  (s.outcome = some .success → Next .cmdeng s = .next (Completed s (errValue 0 i.opcode.toNat 0 0))) ∧
  ∀ c : Byte, s.outcome = some (.deviceIo c) → Next .cmdeng s = .next (Completed s (errValue 0 i.opcode.toNat c.toNat 3))

/-- The gate of a command: outside READY it ends with StateError, lcause 1 or 3, and changes nothing else
(41_display_lifecycle R122, R123). -/
def GateRefuses (i : Instr) : Prop :=
  ∀ s, Latched i s →
    (s.lifecycle = .uninit → exec i s = .next (Ended s (errValue 0 i.opcode.toNat 1 2))) ∧
    (s.lifecycle = .closed → exec i s = .next (Ended s (errValue 0 i.opcode.toNat 3 2)))

/-- The request of a flush that is due is a step of its own, event `e` of the operation's agent (20_memory R76, R80; log 6). -/
def FlushIsRequested (e : Event) (s : State) : Prop :=
  s.flushDue = true → s.devReq = none → s.devAns = none → Next e s = .next (Requested s)

/-- The rest of a flushing command, in four steps: CMDENG requests the flush, DEVICE answers, CMDENG takes the answer up, CMDENG completes
with it in ERR; what the command wrote is kept (42_display_pixels R150, 60_exceptions R183, R185, R190, 20_memory R76, R80). -/
def FlushesThenCompletes (i : Instr) : Prop :=
  ∀ s b, Latched i s → s.pipe = .host →
    (s.outcome = none → FlushIsRequested .cmdeng s) ∧
    AnswerIsDelivered (.write b) s ∧
    (s.outcome = none → s.devAns = some ⟨.write b, .ok⟩ → Next .cmdeng s = .next (Resumed s .success)) ∧
    (∀ c, s.outcome = none → s.devAns = some ⟨.write b, .fail c⟩ → Next .cmdeng s = .next (Resumed s (.deviceIo c))) ∧
    CompletesApart i s

/-- A byte of HEXIN is a hex digit of value `v` (40_codec R115). -/
def IsHexDigit (b : Byte) (v : Nat) : Prop :=
  (v ≤ 9 ∧ b.toNat = 0x30 + v) ∨ (10 ≤ v ∧ v ≤ 15 ∧ (b.toNat = 0x41 + (v - 10) ∨ b.toNat = 0x61 + (v - 10)))

/-- The code of the lowercase hex digit of `v` (40_codec R117). -/
def lowerHex (v : Nat) : Nat := if v < 10 then 0x30 + v else 0x61 + (v - 10)

/-- SCROLL_DONE after a completion is posted (43_scroll R171). -/
def Posted (s : State) (tag : Byte) (code : BitVec 4) (cause : Byte) : ScrollDone :=
  { valid := true, ovf := s.done.ovf || s.done.valid, code := code, tag := tag, cause := cause }

/-- A SEQ operation that has made memory `m`, its flush due and not yet requested (43_scroll R164, R166, R169; 20_memory R80; log 6). -/
def SeqFlushing (kind : SeqKind) (s : State) (m : Memory) : State := { s with mem := m, pipe := .seq kind, flushDue := true }

/-- No SEQ operation has a flush to request or an answer to take up, so that SEQ's next step is one it begins (43_scroll R164-R169). -/
def SeqMayBegin (s : State) : Prop := ∀ k, s.pipe = .seq k → s.flushDue = false ∧ s.devAns = none

/-- A byte offset of the framebuffer (20_memory R65). -/
def framebufferOffset (a : Nat) : Prop := 0x100 ≤ a ∧ a < 0x180

/-- Memory bytes outside the framebuffer are the same. -/
def SameOutsideFramebuffer (m m' : Memory) : Prop := ∀ a, ¬ framebufferOffset a → m'.readByte a = m.readByte a

/-- The environment of one frame: a whole interval of ticks, then SEQ's FRAME, its request, DEVICE's answer `ok`, and SEQ's going
on (43_scroll R175; log 5, log 6). -/
def frameSchedule (interval : Nat) : List Event := List.replicate interval .tick ++ [.seq, .seq, .answer .ok, .seq]

/-- The environment of `k` frames. -/
def framesSchedule (interval : Nat) : Nat → List Event
  | 0 => []
  | k + 1 => frameSchedule interval ++ framesSchedule interval k

/-- The environment of the end of a call: a whole interval of ticks, TAKE, FINISH, its request, DEVICE's answer `ok`, and the rest of
FINISH (43_scroll R175; log 5, log 6). -/
def finishSchedule (interval : Nat) : List Event := List.replicate interval .tick ++ [.seq, .seq, .seq, .answer .ok, .seq]

/-- A state with the payload fields that the spec calls unspecified blanked: REQ unless REQ.valid, CUR outside RUN and FINISH
(10_state R49). -/
def State.maskUnspecified (s : State) : State :=
  { s with
    sq := { s.sq with
      req := if s.sq.reqValid then s.sq.req else .blank
      cur := if s.sq.phase = .run ∨ s.sq.phase = .finish then s.sq.cur else .blank } }

end Sys2Proof.Machine
end

