-- ==== Sys2Proof/Certificates/Slice0/Obligations.lean ====
section
/-!
DEFINITION. The statements for the provers. Each docstring names the rules it formalises; where a clause is the model's own choice it
names the log entry. `Next e s` is the step in which event `e` comes next; `Ended`, `Waiting`, `Flushing`, `Requested`, `Delivered`,
`Resumed` and `Completed` are the shapes in which a step leaves the machine (Safety.lean), so every equation is also the frame: what it
does not write is unchanged.

The model's own choices these statements are written in: which event comes next is read from an agenda (log 1); DEVICE's answer, the
rest of the operation that waits for it, and a host command's completion after a wait are steps of their own (log 5); so are an FB
update and the request for its flush (20_memory R80; log 6); ERR.OPCODE is taken from PENDING.word (log 15). They name no value that the
spec leaves open.
-/

open Sys2Proof Sys2Proof.Machine

/-! ### Decoding and running a command -/

/-- Words written out from the opcode map decode to their commands, and illegal words to their reason (30_encoding R92-R94). -/
def Obligations.DecodeReadsSpecWords : Prop :=
  decode 0x00000000 = .ok .nop ∧ decode 0x00000001 = .ok .init ∧ decode 0x00000010 = .ok .setpix ∧ decode 0x00000018 = .ok .flipv ∧
  decode 0x00000020 = .ok .pack ∧ decode 0x00000030 = .ok .showmsg ∧ decode 0x00000110 = .error .rsvNonzero ∧
  decode 0x00000005 = .error .reservedOpcode

/-- A word decodes to a command exactly when it is that command's encoding (30_encoding R86, R87, R93): no bit of the word is dropped. -/
def Obligations.DecodeAgreesWithEncode : Prop := ∀ (i : Instr) (w : Word), decode w = .ok i ↔ w = encode i

/-- A word is rejected for RSV exactly when bits [31:8] are not 0, and as reserved exactly when RSV is 0 and OP is in one of R94's
ranges (30_encoding R92, R94). -/
def Obligations.DecodeRejectsByName : Prop :=
  ∀ w : Word,
    (decode w = .error .rsvNonzero ↔ w.extractLsb' 8 24 ≠ 0) ∧
    (decode w = .error .reservedOpcode ↔
      w.extractLsb' 8 24 = 0 ∧
      let op := (w.extractLsb' 0 8).toNat
      (0x05 ≤ op ∧ op ≤ 0x0F) ∨ (0x19 ≤ op ∧ op ≤ 0x1F) ∨ (0x24 ≤ op ∧ op ≤ 0x2F) ∨ (0x31 ≤ op ∧ op ≤ 0xFF))

/-- With a latched command whose word decodes to `i` and the pipeline free, the step that picks CMDENG is exec of `i` at that state; so
is the block's own move when SEQ has no step; when SEQ is ready too, the own move is exec of `i` or SEQ's step, with one ARB draw counted
(30_encoding R91, 20_memory R79; the picks are the model's, log 1 and log 2). -/
def Obligations.StepRunsDecodedCommand : Prop :=
  ∀ (s : State) (i : Instr), s.pending.valid = true → s.pipe = .free → decode s.pending.word = .ok i →
    Next .cmdeng s = exec i s ∧
    (s.agenda = [] → s.seqReady = false → step s = exec i s) ∧
    (s.agenda = [] → s.seqReady = true →
      step s = exec i { s with arbCount := s.arbCount + 1 } ∨
      ∃ t, { s with arbCount := s.arbCount + 1 }.seqNext = some t ∧ step s = .next t)

/-- An illegal word, once executed, ends with ILLEGAL 1 (RSV not 0) or ILLEGAL 2 (a reserved opcode), whatever the state, and nothing
but ERR changes as the command completes (30_encoding R92, R94). That CMDENG moves next is asked of the agenda (log 1), and ERR.OPCODE
is read from PENDING.word (log 15). -/
def Obligations.IllegalWordsChangeOnlyErr : Prop :=
  ∀ s : State, s.pending.valid = true → s.pipe = .free →
    let op := (s.pending.word.extractLsb' 0 8).toNat
    (s.pending.word.extractLsb' 8 24 ≠ 0 → Next .cmdeng s = .next (Ended s (errValue 0 op 1 4))) ∧
    (s.pending.word.extractLsb' 8 24 = 0 →
      (0x05 ≤ op ∧ op ≤ 0x0F) ∨ (0x19 ≤ op ∧ op ≤ 0x1F) ∨ (0x24 ≤ op ∧ op ≤ 0x2F) ∨ (0x31 ≤ op ∧ op ≤ 0xFF) →
      Next .cmdeng s = .next (Ended s (errValue 0 op 2 4)))

/-- The model's way to place a command (log 12): the very next step runs exactly it, from the state its CMD write leaves. -/
def Obligations.PlacedCommandRunsNext : Prop :=
  ∀ (s : State) (i : Instr),
    step (s.withFetchWord 32 (encode i).toNat) =
      exec i
        { s with
          cmd := encode i, pending := { valid := true, word := encode i }, pipe := .free, flushDue := false
          devReq := none, devAns := none, outcome := none }

/-! ### ColorCodec -/

/-- PACK (40_codec R113): a valid color gives RESULT_565 = its top 5, 6 and 5 bits packed, whatever LOWLIGHT is; a channel out of range
gives VALIDATION, COLOR and leaves RESULT_565 alone. -/
def Obligations.PackStoresQuantizedColor : Prop :=
  ∀ s : State, Latched .pack s →
    (∀ c, HoldsColor s.regs.colorRg s.regs.colorB c →
      exec .pack s = .next (Ended
        { s with result565 := BitVec.ofNat 32 (c.r.toNat / 8 * 2048 + c.g.toNat / 4 * 32 + c.b.toNat / 8) } (errValue 0 0x20 0 0))) ∧
    (BadColor s.regs.colorRg s.regs.colorB → exec .pack s = .next (Ended s (errValue 0 0x20 2 1)))

/-- UNPACK (40_codec R114): each field of ARG[15:0] expanded to 8 bits by repeating its top bits below it; ARG[31:16] is ignored and
every value is valid. -/
def Obligations.UnpackExpandsFields : Prop :=
  ∀ s : State, Latched .unpack s →
    let p := s.regs.arg.toNat % 65536
    let r5 := p / 2048
    let g6 := p / 32 % 64
    let b5 := p % 32
    exec .unpack s = .next (Ended
      { s with resultRgb := BitVec.ofNat 32 ((8 * b5 + b5 / 4) * 65536 + (4 * g6 + g6 / 16) * 256 + (8 * r5 + r5 / 4)) }
      (errValue 0 0x21 0 0))

/-- HEX2RGB (40_codec R116): length 7, '#', six hex digits of either case give the color; else VALIDATION, HEX with INDEX the first
bad digit's position, or 0 for the length or the '#'. That INDEX = k follows 40_codec R116 and 60_exceptions R180 over the "otherwise
0" of 10_state R27 is the model's choice where the spec's files disagree (log 25). -/
def Obligations.HexParsesOrNamesFirstBadDigit : Prop :=
  ∀ s : State, Latched .hex2rgb s →
    let len := s.regs.hexlen.extractLsb' 0 8
    (∀ d : Nat → Nat, len = 7 → hexByte s.regs 0 = 0x23 → (∀ k, 1 ≤ k → k ≤ 6 → IsHexDigit (hexByte s.regs k) (d k)) →
      exec .hex2rgb s = .next (Ended
        { s with resultRgb := BitVec.ofNat 32 ((16 * d 5 + d 6) * 65536 + (16 * d 3 + d 4) * 256 + (16 * d 1 + d 2)) }
        (errValue 0 0x22 0 0))) ∧
    (len ≠ 7 → exec .hex2rgb s = .next (Ended s (errValue 0 0x22 5 1))) ∧
    (len = 7 → hexByte s.regs 0 ≠ 0x23 → exec .hex2rgb s = .next (Ended s (errValue 0 0x22 5 1))) ∧
    (∀ k, len = 7 → hexByte s.regs 0 = 0x23 → 1 ≤ k → k ≤ 6 →
      (∀ j, 1 ≤ j → j < k → ∃ v, IsHexDigit (hexByte s.regs j) v) → (∀ v, ¬ IsHexDigit (hexByte s.regs k) v) →
      exec .hex2rgb s = .next (Ended s (errValue k 0x22 5 1)))

/-- RGB2HEX (40_codec R117): "#rrggbb" in lowercase and a zero byte, in little-endian lanes; a channel out of range gives VALIDATION,
COLOR and leaves HEXOUT alone. -/
def Obligations.HexFormatsLowercase : Prop :=
  ∀ s : State, Latched .rgb2hex s →
    (∀ c, HoldsColor s.regs.colorRg s.regs.colorB c →
      exec .rgb2hex s = .next (Ended
        { s with
          hexout0 := BitVec.ofNat 32 (0x23 + lowerHex (c.r.toNat / 16) * 2 ^ 8 + lowerHex (c.r.toNat % 16) * 2 ^ 16 +
            lowerHex (c.g.toNat / 16) * 2 ^ 24)
          hexout1 := BitVec.ofNat 32 (lowerHex (c.g.toNat % 16) + lowerHex (c.b.toNat / 16) * 2 ^ 8 +
            lowerHex (c.b.toNat % 16) * 2 ^ 16) }
        (errValue 0 0x23 0 0))) ∧
    (BadColor s.regs.colorRg s.regs.colorB → exec .rgb2hex s = .next (Ended s (errValue 0 0x23 2 1)))

/-- What RGB2HEX writes, given back to HEX2RGB with length 7, yields the color again (40_codec R116 with R117). -/
def Obligations.HexFormatThenParseRestoresColor : Prop :=
  ∀ (s t u : State) (c : Rgb), HoldsColor s.regs.colorRg s.regs.colorB c → exec .rgb2hex s = .next t →
    u.regs.hexlen = 7 → u.regs.hexin0 = t.hexout0 → u.regs.hexin1 = t.hexout1 →
    ∃ v, exec .hex2rgb u = .next v ∧ v.resultRgb = BitVec.ofNat 32 (c.b.toNat * 65536 + c.g.toNat * 256 + c.r.toNat)

/-- The round-trip bound (40_codec R120): pack then unpack moves red and blue by at most 7 and green by at most 3. -/
def Obligations.PackUnpackErrorIsBounded : Prop :=
  ∀ c : Rgb,
    let d := unpackColor (packColor c)
    (c.r.toNat ≤ d.r.toNat + 7 ∧ d.r.toNat ≤ c.r.toNat + 7) ∧ (c.g.toNat ≤ d.g.toNat + 3 ∧ d.g.toNat ≤ c.g.toNat + 3) ∧
    (c.b.toNat ≤ d.b.toNat + 7 ∧ d.b.toNat ≤ c.b.toNat + 7)

/-- Idempotence (40_codec R121): packing what was unpacked gives the same word, a second round trip changes nothing, and a stored pixel
written back with LOWLIGHT = 0 is unchanged. -/
def Obligations.RepackingIsIdentity : Prop :=
  (∀ p : Half, packColor (unpackColor p) = p ∧ writeTransform (unpackColor p) false = p) ∧
  ∀ c : Rgb, unpackColor (packColor (unpackColor (packColor c))) = unpackColor (packColor c)

/-- The write transform by its three fields (40_codec R107, R110, R111): each channel divided by 8 (red, blue) or 4 (green), and by 8
more under low-light. -/
def Obligations.WriteTransformFields : Prop :=
  ∀ c : Rgb,
    writeTransform c false = BitVec.ofNat 16 (c.r.toNat / 8 * 2048 + c.g.toNat / 4 * 32 + c.b.toNat / 8) ∧
    writeTransform c true = BitVec.ofNat 16 (c.r.toNat / 64 * 2048 + c.g.toNat / 32 * 32 + c.b.toNat / 64)

/-! ### Lifecycle and configuration -/

/-- NOP (41_display_lifecycle R125): ERR (OK) and nothing else, in every state. -/
def Obligations.NopWritesOnlyErr : Prop := ∀ s : State, Latched .nop s → exec .nop s = .next (Ended s 0)

/-- INIT (41_display_lifecycle R126): from UNINIT one DevOpen; StateError elsewhere. DEVICE's answer, the rest of INIT (READY and
DEV_OPEN = 1 on ok, neither on fail) and its completion (OK or DEVICE_IO in ERR) are three steps. The steps are asked of the agenda
(log 1), and that they are three is log 5. -/
def Obligations.InitOpensOnce : Prop :=
  ∀ s : State, Latched .init s →
    (s.lifecycle = .uninit → exec .init s = .next (Waiting s .openDev)) ∧
    (s.lifecycle = .ready → exec .init s = .next (Ended s (errValue 0 0x01 2 2))) ∧
    (s.lifecycle = .closed → exec .init s = .next (Ended s (errValue 0 0x01 3 2))) ∧
    (s.pipe = .host →
      AnswerIsDelivered .openDev s ∧
      (s.outcome = none → s.devAns = some ⟨.openDev, .ok⟩ →
        Next .cmdeng s = .next (Resumed { s with devOpen := true, lifecycle := .ready } .success)) ∧
      (∀ c, s.outcome = none → s.devAns = some ⟨.openDev, .fail c⟩ → Next .cmdeng s = .next (Resumed s (.deviceIo c))) ∧
      CompletesApart .init s)

/-- CLOSE (41_display_lifecycle R127): from READY one DevClose; a no-op in CLOSED; StateError in UNINIT. DEVICE's answer, the rest of
CLOSE (CLOSED and DEV_OPEN = 0 whatever the answer) and its completion (OK or DEVICE_IO in ERR) are three steps. The steps are asked
of the agenda (log 1), and that they are three is log 5. -/
def Obligations.CloseIsTerminalAndIdempotent : Prop :=
  ∀ s : State, Latched .close s →
    (s.lifecycle = .ready → exec .close s = .next (Waiting s .closeDev)) ∧
    (s.lifecycle = .closed → exec .close s = .next (Ended s (errValue 0 0x02 0 0))) ∧
    (s.lifecycle = .uninit → exec .close s = .next (Ended s (errValue 0 0x02 1 2))) ∧
    (s.pipe = .host →
      AnswerIsDelivered .closeDev s ∧
      (s.outcome = none → s.devAns = some ⟨.closeDev, .ok⟩ →
        Next .cmdeng s = .next (Resumed { s with devOpen := false, lifecycle := .closed } .success)) ∧
      (∀ c, s.outcome = none → s.devAns = some ⟨.closeDev, .fail c⟩ →
        Next .cmdeng s = .next (Resumed { s with devOpen := false, lifecycle := .closed } (.deviceIo c))) ∧
      CompletesApart .close s)

/-- SETROT (41_display_lifecycle R128): ARG[15:0] = 90 k for k in 0..3 stores k in ROT and nothing else; any other value gives VALIDATION,
ROTATION. -/
def Obligations.SetrotStoresQuarterTurns : Prop :=
  GateRefuses .setrot ∧
  ∀ s : State, Latched .setrot s → s.lifecycle = .ready →
    (∀ k : Nat, k < 4 → s.regs.arg.toNat % 65536 = 90 * k →
      exec .setrot s = .next (Ended { s with rot := BitVec.ofNat 2 k } (errValue 0 0x03 0 0))) ∧
    ((∀ k : Nat, k < 4 → s.regs.arg.toNat % 65536 ≠ 90 * k) → exec .setrot s = .next (Ended s (errValue 0 0x03 4 1)))

/-- SETLOWLIGHT (41_display_lifecycle R129): LOWLIGHT takes ARG[0]; no value is invalid and no stored pixel changes. -/
def Obligations.SetlowlightTakesBitZero : Prop :=
  GateRefuses .setlowlight ∧
  ∀ s : State, Latched .setlowlight s → s.lifecycle = .ready →
    exec .setlowlight s = .next (Ended { s with lowlight := decide (s.regs.arg.toNat % 2 = 1) } (errValue 0 0x04 0 0))

/-- Every gated command outside READY ends with StateError, lcause 1 in UNINIT and 3 in CLOSED, before any operand is read or validated,
and changes nothing else (41_display_lifecycle R122, R131). -/
def Obligations.GatedCommandsNeedReady : Prop :=
  ∀ i ∈ [Instr.setrot, .setlowlight, .setpix, .getpix, .setpixs, .fill, .clear, .setmatrix, .getmatrix, .fliph, .flipv], GateRefuses i

/-! ### Rotation and pixels -/

/-- The rotation mapping as its table, and the properties: four times the identity, 270 degrees the inverse of 90, and phys a permutation
of the 64 indices (42_display_pixels R132, R133, R135). -/
def Obligations.RotationMapsAndPermutes : Prop :=
  (∀ x y : Fin 8,
    rotate 0 ⟨x, y⟩ = ⟨x, y⟩ ∧
    ((rotate 1 ⟨x, y⟩).x.val = 7 - y.val ∧ (rotate 1 ⟨x, y⟩).y = x) ∧
    ((rotate 2 ⟨x, y⟩).x.val = 7 - x.val ∧ (rotate 2 ⟨x, y⟩).y.val = 7 - y.val) ∧
    ((rotate 3 ⟨x, y⟩).x = y ∧ (rotate 3 ⟨x, y⟩).y.val = 7 - x.val) ∧
    pixelIndex ⟨x, y⟩ = 8 * y.val + x.val) ∧
  ∀ (k : BitVec 2) (p : Pos),
    rotate k (rotate k (rotate k (rotate k p))) = p ∧ rotate 3 (rotate 1 p) = p ∧ rotate 2 (rotate 2 p) = p ∧
    physIndex k p < 64 ∧ (∀ q, physIndex k p = physIndex k q → p = q) ∧ ∀ i < 64, ∃ q, physIndex k q = i

/-- SETPIX (42_display_pixels R139): in READY a valid position and color write the transformed word at the rotated index, leave every
other byte of memory, and leave one flush due; the position is checked before the color. The flush's request (log 6), DEVICE's answer, the
command's going on and its completion (log 5) are steps of their own, asked of the agenda (log 1). -/
def Obligations.SetpixWritesOnePixel : Prop :=
  GateRefuses .setpix ∧ FlushesThenCompletes .setpix ∧
  ∀ s : State, Latched .setpix s → s.lifecycle = .ready →
    (∀ p c, HoldsPos s.regs.pos p → HoldsColor s.regs.colorRg s.regs.colorB c →
      ∃ m, exec .setpix s = .next (Flushing s m) ∧ m.pixel (physIndex s.rot p) = writeTransform c s.lowlight ∧
        ∀ a, a ≠ 0x100 + 2 * physIndex s.rot p → a ≠ 0x100 + 2 * physIndex s.rot p + 1 → m.readByte a = s.mem.readByte a) ∧
    (BadPos s.regs.pos → exec .setpix s = .next (Ended s (errValue 0 0x10 1 1))) ∧
    (¬ BadPos s.regs.pos → BadColor s.regs.colorRg s.regs.colorB → exec .setpix s = .next (Ended s (errValue 0 0x10 2 1)))

/-- GETPIX (42_display_pixels R140): in READY a valid position reads the stored color at the rotated index into RESULT_RGB; no pixel is
written and DEVICE is not asked. -/
def Obligations.GetpixReadsStoredColor : Prop :=
  GateRefuses .getpix ∧
  ∀ s : State, Latched .getpix s → s.lifecycle = .ready →
    (∀ p, HoldsPos s.regs.pos p →
      let d := unpackColor (s.mem.pixel (physIndex s.rot p))
      exec .getpix s = .next (Ended
        { s with resultRgb := BitVec.ofNat 32 (d.b.toNat * 65536 + d.g.toNat * 256 + d.r.toNat) } (errValue 0 0x11 0 0))) ∧
    (BadPos s.regs.pos → exec .getpix s = .next (Ended s (errValue 0 0x11 1 1)))

/-- SETPIXS (42_display_pixels R141): in READY a batch of n valid entries, n at most 64, writes each entry's pixel, the last of several
entries for one pixel winning, leaves every other byte, and leaves one flush due (also for n = 0); else LENGTH, or the first bad entry in
index order, its position before its color, with no pixel written. The flush's request (log 6), DEVICE's answer, the command's going on
and its completion (log 5) are steps of their own, asked of the agenda (log 1). -/
def Obligations.SetpixsWritesWholeBatchOrNothing : Prop :=
  GateRefuses .setpixs ∧ FlushesThenCompletes .setpixs ∧
  ∀ s : State, Latched .setpixs s → s.lifecycle = .ready →
    let n := s.regs.arg.toNat % 65536
    let posWord := fun j => s.mem.readWord (0x800 + 16 * j)
    let rgWord := fun j => s.mem.readWord (0x804 + 16 * j)
    let bWord := fun j => s.mem.readWord (0x808 + 16 * j)
    (∀ (p : Nat → Pos) (c : Nat → Rgb), n ≤ 64 →
      (∀ j < n, HoldsPos (posWord j) (p j) ∧ HoldsColor (rgWord j) (bWord j) (c j)) →
      ∃ m, exec .setpixs s = .next (Flushing s m) ∧
        (∀ j < n, (∀ k < n, j < k → physIndex s.rot (p k) ≠ physIndex s.rot (p j)) →
          m.pixel (physIndex s.rot (p j)) = writeTransform (c j) s.lowlight) ∧
        ∀ a, (∀ j < n, a ≠ 0x100 + 2 * physIndex s.rot (p j) ∧ a ≠ 0x100 + 2 * physIndex s.rot (p j) + 1) →
          m.readByte a = s.mem.readByte a) ∧
    (64 < n → exec .setpixs s = .next (Ended s (errValue 0 0x12 6 1))) ∧
    (∀ j < n, n ≤ 64 → (∀ k < j, ¬ BadPos (posWord k) ∧ ¬ BadColor (rgWord k) (bWord k)) →
      (BadPos (posWord j) → exec .setpixs s = .next (Ended s (errValue j 0x12 1 1))) ∧
      (¬ BadPos (posWord j) → BadColor (rgWord j) (bWord j) → exec .setpixs s = .next (Ended s (errValue j 0x12 2 1))))

/-- FILL (42_display_pixels R142): in READY a valid color writes the same transformed word to all 64 indices and leaves one flush due. The
flush's request (log 6), DEVICE's answer, the command's going on and its completion (log 5) are steps of their own, asked of the agenda
(log 1). -/
def Obligations.FillWritesEveryPixel : Prop :=
  GateRefuses .fill ∧ FlushesThenCompletes .fill ∧
  ∀ s : State, Latched .fill s → s.lifecycle = .ready →
    (∀ c, HoldsColor s.regs.colorRg s.regs.colorB c →
      ∃ m, exec .fill s = .next (Flushing s m) ∧ (∀ i < 64, m.pixel i = writeTransform c s.lowlight) ∧
        SameOutsideFramebuffer s.mem m) ∧
    (BadColor s.regs.colorRg s.regs.colorB → exec .fill s = .next (Ended s (errValue 0 0x13 2 1)))

/-- CLEAR (42_display_pixels R143): in READY every pixel word becomes 0x0000 for either LOWLIGHT, whatever the operand registers hold and
whatever was stored before, and one flush is due. The flush's request (log 6), DEVICE's answer, the command's going on and its
completion (log 5) are steps of their own, asked of the agenda (log 1). -/
def Obligations.ClearZeroesEveryPixel : Prop :=
  GateRefuses .clear ∧ FlushesThenCompletes .clear ∧
  ∀ s : State, Latched .clear s → s.lifecycle = .ready →
    ∃ m, exec .clear s = .next (Flushing s m) ∧ (∀ i < 64, m.pixel i = 0 ∧ unpackColor (m.pixel i) = ⟨0, 0, 0⟩) ∧
      SameOutsideFramebuffer s.mem m

/-- SETMATRIX (42_display_pixels R144): in READY a grid of 8 rows of 8 valid colors is written through the rotation and low-light
pipeline, entry 8 y + x at logical (x, y), and one flush is due; the shape is checked before any color, every color before any
write. The flush's request (log 6), DEVICE's answer, the command's going on and its completion (log 5) are steps of their own, asked of
the agenda (log 1). -/
def Obligations.SetmatrixWritesGridOrNothing : Prop :=
  GateRefuses .setmatrix ∧ FlushesThenCompletes .setmatrix ∧
  ∀ s : State, Latched .setmatrix s → s.lifecycle = .ready →
    let shaped := s.regs.mshape.toNat % 256 = 8 ∧ s.regs.rowlen = 0x88888888
    let rgWord := fun e => s.mem.readWord (0x200 + 8 * e)
    let bWord := fun e => s.mem.readWord (0x204 + 8 * e)
    (∀ c : Nat → Rgb, shaped → (∀ e < 64, HoldsColor (rgWord e) (bWord e) (c e)) →
      ∃ m, exec .setmatrix s = .next (Flushing s m) ∧
        (∀ p : Pos, m.pixel (physIndex s.rot p) = writeTransform (c (8 * p.y.val + p.x.val)) s.lowlight) ∧
        SameOutsideFramebuffer s.mem m) ∧
    (¬ shaped → exec .setmatrix s = .next (Ended s (errValue 0 0x15 3 1))) ∧
    (∀ e < 64, shaped → (∀ k < e, ¬ BadColor (rgWord k) (bWord k)) → BadColor (rgWord e) (bWord e) →
      exec .setmatrix s = .next (Ended s (errValue e 0x15 2 1)))

/-- GETMATRIX (42_display_pixels R145): in READY, MRESULT word 8 y + x becomes the stored color of logical (x, y); every other byte of
memory, FB included, is unchanged. -/
def Obligations.GetmatrixCopiesStoredColors : Prop :=
  GateRefuses .getmatrix ∧
  ∀ s : State, Latched .getmatrix s → s.lifecycle = .ready →
    ∃ m, exec .getmatrix s = .next (Ended { s with mem := m } (errValue 0 0x16 0 0)) ∧
      (∀ p : Pos,
        let d := unpackColor (s.mem.pixel (physIndex s.rot p))
        m.readWord (0x400 + 4 * (8 * p.y.val + p.x.val)) = BitVec.ofNat 32 (d.b.toNat * 65536 + d.g.toNat * 256 + d.r.toNat)) ∧
      ∀ a, (a < 0x400 ∨ 0x500 ≤ a) → m.readByte a = s.mem.readByte a

/-- FLIPH (42_display_pixels R146): in READY, logical column x takes the value of column 7 - x through the read and write paths, low-light
included; memory outside FB (MRESULT and MSTAGE among it) is unchanged; one flush is due. The flush's request (log 6), DEVICE's answer, the
command's going on and its completion (log 5) are steps of their own, asked of the agenda (log 1). -/
def Obligations.FliphMirrorsColumns : Prop :=
  GateRefuses .fliph ∧ FlushesThenCompletes .fliph ∧
  ∀ s : State, Latched .fliph s → s.lifecycle = .ready →
    ∃ m, exec .fliph s = .next (Flushing s m) ∧ SameOutsideFramebuffer s.mem m ∧
      ∀ x x' y : Fin 8, x.val + x'.val = 7 →
        m.pixel (physIndex s.rot ⟨x, y⟩) = writeTransform (unpackColor (s.mem.pixel (physIndex s.rot ⟨x', y⟩))) s.lowlight

/-- FLIPV (42_display_pixels R147): as FLIPH, with row y taking the value of row 7 - y. The flush's request (log 6), DEVICE's answer, the
command's going on and its completion (log 5) are steps of their own, asked of the agenda (log 1). -/
def Obligations.FlipvMirrorsRows : Prop :=
  GateRefuses .flipv ∧ FlushesThenCompletes .flipv ∧
  ∀ s : State, Latched .flipv s → s.lifecycle = .ready →
    ∃ m, exec .flipv s = .next (Flushing s m) ∧ SameOutsideFramebuffer s.mem m ∧
      ∀ x y y' : Fin 8, y.val + y'.val = 7 →
        m.pixel (physIndex s.rot ⟨x, y⟩) = writeTransform (unpackColor (s.mem.pixel (physIndex s.rot ⟨x, y'⟩))) s.lowlight

/-- Flips are involutions with LOWLIGHT = 0: a flip of the memory a flip left, ROT and LOWLIGHT unchanged, restores it whole; with
LOWLIGHT = 1 the word a flip stores for p is not p unless p = 0 (42_display_pixels R148). -/
def Obligations.FlipTwiceRestoresWithoutLowlight : Prop :=
  (∀ (s t u : State) (i : Instr), i = .fliph ∨ i = .flipv → s.mem.wf → s.lifecycle = .ready → s.lowlight = false →
    exec i s = .next t → u.mem = t.mem → u.rot = s.rot → u.lowlight = false → u.lifecycle = .ready →
    ∃ v, exec i u = .next v ∧ v.mem = s.mem) ∧
  ∀ p : Half, p ≠ 0 → writeTransform (unpackColor p) true ≠ p

/-- The flush count (42_display_pixels R149): a command of the seven that flush either leaves its flush due, with nothing requested yet, or
has failed, flushes nothing and writes no pixel; the others make no flush due. CMDENG then makes exactly one request of the 128 bytes as
they stand, and with no flush due it makes none while the command is in progress. That the request is a step of its own is log 6, and
that CMDENG moves next is asked of the agenda (log 1). -/
def Obligations.FlushCountIsOneOrNone : Prop :=
  (∀ (i : Instr) (s t : State), exec i s = .next t →
    (i ∈ [Instr.setpix, .setpixs, .fill, .clear, .setmatrix, .fliph, .flipv] →
      (t.pipe = .host ∧ t.flushDue = true ∧ t.devReq = s.devReq) ∨
      (t.pipe = .free ∧ t.flushDue = s.flushDue ∧ t.devReq = s.devReq ∧ t.mem = s.mem ∧ t.err.extractLsb' 0 4 ≠ 0)) ∧
    (i ∈ [Instr.getpix, .getmatrix, .setrot, .setlowlight, .nop, .pack, .unpack, .hex2rgb, .rgb2hex, .showmsg] →
      t.pipe = .free ∧ t.flushDue = s.flushDue ∧ t.devReq = s.devReq)) ∧
  (∀ s : State, s.pipe = .host → s.outcome = none → s.devAns = none → s.devReq = none → s.flushDue = true →
    ∃ t, Next .cmdeng s = .next t ∧ t.flushDue = false ∧ t.devReq = some (.write s.fbBytes) ∧ s.fbBytes.length = 128) ∧
  ∀ s t : State, s.pipe = .host → s.flushDue = false → Next .cmdeng s = .next t → t.flushDue = false ∧ t.devReq = s.devReq

/-! ### Scroll text -/

/-- SHOWMSG (43_scroll R160): the length, then the text color, then the background color are checked, with nothing changed but ERR; an
accepted message takes the next tag, posts OK at once if its filtered text is empty, and is offered to SEQ otherwise. That INDEX = 1
for a bad background color follows 43_scroll R160 and 60_exceptions R180 over the "otherwise 0" of 10_state R27 is the model's choice
where the spec's files disagree (log 25). -/
def Obligations.ShowmsgChecksThenHandsOver : Prop :=
  ∀ s : State, Latched .showmsg s →
    let len := s.regs.textlen.toNat % 65536
    let t := filterText ((List.range len).map (fun k => s.mem.readByte (0xC00 + k)))
    let tag := s.sq.lastTag + 1
    let s1 := { s with sq := { s.sq with lastTag := tag } }
    (256 < len → exec .showmsg s = .next (Ended s (errValue 0 0x30 6 1))) ∧
    (len ≤ 256 → BadColor s.regs.textcolRg s.regs.textcolB → exec .showmsg s = .next (Ended s (errValue 0 0x30 2 1))) ∧
    (∀ tc, len ≤ 256 → HoldsColor s.regs.textcolRg s.regs.textcolB tc → BadColor s.regs.backcolRg s.regs.backcolB →
      exec .showmsg s = .next (Ended s (errValue 1 0x30 2 1))) ∧
    (∀ tc bc, len ≤ 256 → HoldsColor s.regs.textcolRg s.regs.textcolB tc → HoldsColor s.regs.backcolRg s.regs.backcolB bc →
      (t = [] → exec .showmsg s = .next (Ended { s1 with done := Posted s1 tag 0 0 } (errValue 0 0x30 0 0))) ∧
      (t ≠ [] → exec .showmsg s = .next (Ended
        (s1.offer false
          { text := t, n := BitVec.ofNat 9 t.length, tcolor := tc, bcolor := bc
            interval := BitVec.ofNat 32 (max 10 s.regs.speed.toNat), tag := tag }) (errValue 0 0x30 0 0))))

/-- offer by SEQ_STATE, for both values of CANCEL_REPORTS (43_scroll R161, R162): a superseded call posts CANCELLED exactly when
CANCEL_REPORTS holds. -/
def Obligations.OfferReplacesOrSettles : Prop :=
  ∀ (s : State) (r : ScrollCall) (cr : Bool),
    let dropped := fun (tag : Byte) => if cr then Posted s tag 5 0 else s.done
    (s.sq.phase = .idle → s.offer cr r = { s with sq := { s.sq with req := r, reqValid := true, phase := .start } }) ∧
    (s.sq.phase = .run → s.offer cr r =
      { s with
        done := dropped s.sq.cur.tag
        sq := { s.sq with
          tickPending := false, tcount := 0, req := r, reqValid := true, settleCnt := 1000, phase := .settle } }) ∧
    (s.sq.phase = .settle ∨ s.sq.phase = .start → s.offer cr r =
      { s with done := dropped s.sq.req.tag, sq := { s.sq with req := r, reqValid := true } }) ∧
    (s.sq.phase = .finish → s.offer cr r =
      { s with
        done := if s.sq.reqValid then dropped s.sq.req.tag else s.done
        sq := { s.sq with req := r, reqValid := true } })

/-- The text filter (43_scroll R152, R155): only a-z are uppercased, only the 39 supported characters are kept, in order. -/
def Obligations.TextFilterKeepsSupportedUppercase : Prop :=
  (∀ b : Byte, supported b = true ↔
    b.toNat = 0x20 ∨ b.toNat = 0x21 ∨ b.toNat = 0x3F ∨ (0x30 ≤ b.toNat ∧ b.toNat ≤ 0x39) ∨ (0x41 ≤ b.toNat ∧ b.toNat ≤ 0x5A)) ∧
  (∀ b : Byte, (upper b).toNat = if 0x61 ≤ b.toNat ∧ b.toNat ≤ 0x7A then b.toNat - 0x20 else b.toNat) ∧
  filterText [] = [] ∧
  (∀ (b : Byte) (t : List Byte), supported (upper b) = true → filterText (b :: t) = upper b :: filterText t) ∧
  (∀ (b : Byte) (t : List Byte), supported (upper b) = false → filterText (b :: t) = filterText t) ∧
  ∀ t : List Byte, (filterText t).length ≤ t.length ∧ ∀ b ∈ filterText t, supported b = true

/-- A time-unit tick (43_scroll R163): in RUN it counts, and sets TICK_PENDING as the interval ends; in SETTLE it counts down, and
moves to START at 0; elsewhere nothing. It never waits for the pipeline. The tick is an event of the agenda (log 1). That the counters
wrap, in states no run reaches, is log 18. -/
def Obligations.TickCountsIntervalAndSettling : Prop :=
  ∀ s : State,
    (s.sq.phase = .run → s.sq.tcount + 1 = s.sq.cur.interval →
      Next .tick s = .next { s with sq := { s.sq with tcount := 0, tickPending := true } }) ∧
    (s.sq.phase = .run → s.sq.tcount + 1 ≠ s.sq.cur.interval →
      Next .tick s = .next { s with sq := { s.sq with tcount := s.sq.tcount + 1 } }) ∧
    (s.sq.phase = .settle → s.sq.settleCnt = 1 → Next .tick s = .next { s with sq := { s.sq with settleCnt := 0, phase := .start } }) ∧
    (s.sq.phase = .settle → s.sq.settleCnt ≠ 1 → Next .tick s = .next { s with sq := { s.sq with settleCnt := s.sq.settleCnt - 1 } }) ∧
    (s.sq.phase = .idle ∨ s.sq.phase = .start ∨ s.sq.phase = .finish → Next .tick s = .next s)

/-- START (43_scroll R164): with PIPE free and in READY it clears FB and the flush is due; SEQ requests it, DEVICE answers, and then SEQ's
next step makes the request the running call at offset 0 with TW = 16 + 6 n on ok, and ends the call with DEVICE_IO on fail; outside READY
the call ends with STATE and nothing is written. With PIPE owned, or no request, a pick of SEQ does nothing (log 4). The events are the
agenda's (log 1), the clear, its flush's request (log 6), the answer and the rest (log 5) are steps of their own. That a call that ends
leaves TICK_PENDING and TCOUNT as they stand is log 16. -/
def Obligations.StartClearsThenRuns : Prop :=
  ∀ s : State, s.sq.phase = .start →
    (s.sq.reqValid = true → s.pipe = .free → s.lifecycle = .ready →
      ∃ m, Next .seq s = .next (SeqFlushing .start s m) ∧ (∀ i < 64, m.pixel i = 0) ∧ SameOutsideFramebuffer s.mem m) ∧
    (s.sq.reqValid = true → s.pipe = .free → s.lifecycle ≠ .ready →
      Next .seq s = .next
        { s with
          done := Posted s s.sq.req.tag 2 (if s.lifecycle = .uninit then 1 else 3)
          sq := { s.sq with reqValid := false, phase := .idle } }) ∧
    (SeqMayBegin s → s.pipe ≠ .free ∨ s.sq.reqValid = false → Next .seq s = .next s) ∧
    (s.pipe = .seq .start →
      FlushIsRequested .seq s ∧ (∀ b, AnswerIsDelivered (.write b) s) ∧
      (∀ r, s.devAns = some ⟨r, .ok⟩ → Next .seq s = .next
        { s with
          pipe := .free, devAns := none
          sq := { s.sq with
            cur := s.sq.req, tw := BitVec.ofNat 16 (16 + 6 * s.sq.req.n.toNat), offset := 0, reqValid := false, tcount := 0
            tickPending := false, phase := .run } }) ∧
      ∀ r c, s.devAns = some ⟨r, .fail c⟩ → Next .seq s = .next
        { s with
          pipe := .free, devAns := none, done := Posted s s.sq.req.tag 3 c
          sq := { s.sq with reqValid := false, phase := .idle } })

/-- TAKE (43_scroll R165): the interval that ends with every column shown moves SEQ to FINISH, whoever owns the pipeline. That SEQ moves
next is asked of the agenda (log 1). No SEQ operation is in progress in RUN with every column shown in a state a run reaches, so none has
a flush to request or an answer to take up first (log 5, log 6). -/
def Obligations.TakeStopsTimer : Prop :=
  ∀ s : State, s.sq.phase = .run → s.sq.tickPending = true → s.sq.tw.toNat ≤ s.sq.offset.toNat →
    SeqMayBegin s → Next .seq s = .next { s with sq := { s.sq with tickPending := false, phase := .finish } }

/-- FRAME (43_scroll R166): with an interval over, PIPE free and in READY it clears TICK_PENDING, writes the window at the scan offset
through the pixel pipeline with the ROT and LOWLIGHT in force, and its flush is due; SEQ requests it, DEVICE answers, and then SEQ's next
step advances the offset by one on ok, and ends the call with DEVICE_IO and keeps the frame on fail; outside READY the call ends with
STATE. In RUN with no interval over, or with a column left to show and PIPE owned, a pick of SEQ does nothing (log 4). The events are
the agenda's (log 1), the frame, its flush's request (log 6), the answer and the rest (log 5) are steps of their own. That a call that ends
leaves TICK_PENDING and TCOUNT as they stand is log 16, and that the offset counts on past TW, in states no run reaches, is log 18. -/
def Obligations.FrameWritesWindowThenAdvances : Prop :=
  ∀ s : State, s.sq.phase = .run →
    (s.sq.tickPending = true → s.sq.offset.toNat < s.sq.tw.toNat → s.pipe = .free → s.lifecycle = .ready →
      ∃ m, Next .seq s = .next (SeqFlushing .frame { s with sq := { s.sq with tickPending := false } } m) ∧
        (∀ p : Pos, m.pixel (physIndex s.rot p) =
          writeTransform (frameColor Config.font s.sq.cur s.sq.offset.toNat p) s.lowlight) ∧
        SameOutsideFramebuffer s.mem m) ∧
    (s.sq.tickPending = true → s.sq.offset.toNat < s.sq.tw.toNat → s.pipe = .free → s.lifecycle ≠ .ready →
      Next .seq s = .next
        { s with
          done := Posted s s.sq.cur.tag 2 (if s.lifecycle = .uninit then 1 else 3)
          sq := { s.sq with tickPending := false, phase := .idle } }) ∧
    (SeqMayBegin s → s.sq.tickPending = false ∨ (s.sq.offset.toNat < s.sq.tw.toNat ∧ s.pipe ≠ .free) →
      Next .seq s = .next s) ∧
    (s.pipe = .seq .frame →
      FlushIsRequested .seq s ∧ (∀ b, AnswerIsDelivered (.write b) s) ∧
      (∀ r, s.devAns = some ⟨r, .ok⟩ →
        Next .seq s = .next { s with pipe := .free, devAns := none, sq := { s.sq with offset := s.sq.offset + 1 } }) ∧
      ∀ r c, s.devAns = some ⟨r, .fail c⟩ → Next .seq s = .next
        { s with pipe := .free, devAns := none, done := Posted s s.sq.cur.tag 3 c, sq := { s.sq with phase := .idle } })

/-- FINISH (43_scroll R169): with PIPE free and in READY it clears FB and the flush is due; SEQ requests it, DEVICE answers, and then SEQ's
next step completes the call with OK or DEVICE_IO; outside READY the call completes with STATE; then SEQ starts a waiting request at once,
or is idle. With PIPE owned a pick of SEQ does nothing (log 4). The events are the agenda's (log 1), the clear, its flush's request (log
6), the answer and the rest (log 5) are steps of their own. -/
def Obligations.FinishClearsThenCompletes : Prop :=
  ∀ s : State, s.sq.phase = .finish →
    let after := { s.sq with phase := if s.sq.reqValid then SeqState.start else SeqState.idle }
    (s.pipe = .free → s.lifecycle = .ready →
      ∃ m, Next .seq s = .next (SeqFlushing .finish s m) ∧ (∀ i < 64, m.pixel i = 0) ∧ SameOutsideFramebuffer s.mem m) ∧
    (s.pipe = .free → s.lifecycle ≠ .ready →
      Next .seq s = .next { s with done := Posted s s.sq.cur.tag 2 (if s.lifecycle = .uninit then 1 else 3), sq := after }) ∧
    (SeqMayBegin s → s.pipe ≠ .free → Next .seq s = .next s) ∧
    (s.pipe = .seq .finish →
      FlushIsRequested .seq s ∧ (∀ b, AnswerIsDelivered (.write b) s) ∧
      (∀ r, s.devAns = some ⟨r, .ok⟩ →
        Next .seq s = .next { s with pipe := .free, devAns := none, done := Posted s s.sq.cur.tag 0 0, sq := after }) ∧
      ∀ r c, s.devAns = some ⟨r, .fail c⟩ → Next .seq s = .next
        { s with pipe := .free, devAns := none, done := Posted s s.sq.cur.tag 3 c, sq := after })

/-- The bitmap column colors, for every font (43_scroll R157): 8 background columns, then for each character its 5 glyph columns and one
background column, then background for ever. -/
def Obligations.BitmapColumnsFollowGlyphs : Prop :=
  ∀ (font : Byte → Fin 5 → Byte) (t : List Byte) (tc bc : Rgb) (y : Nat), y < 8 →
    (∀ c, c < 8 → columnColor font t t.length tc bc c y = bc) ∧
    (∀ c, 8 + 6 * t.length ≤ c → columnColor font t t.length tc bc c y = bc) ∧
    ∀ (k : Nat) (hk : k < t.length),
      columnColor font t t.length tc bc (8 + 6 * k + 5) y = bc ∧
      ∀ j : Fin 5, columnColor font t t.length tc bc (8 + 6 * k + j.val) y = if (font t[k] j).getLsbD y then tc else bc

/-- A whole animation (43_scroll R173, R175): from a call that has just started in READY, with each interval of ticks followed by SEQ's
FRAME, its flush's request, DEVICE's `ok` and SEQ's taking it up, after k frames the offset is k and FB shows the window at offset k - 1,
for every k up to TW; one more interval, TAKE and FINISH then complete the call with OK and a cleared display. The schedule is the model's
agenda (log 1), its steps those of log 5 and log 6. -/
def Obligations.AnimationShowsEveryColumnThenCompletes : Prop :=
  ∀ (s : State) (rest : List Event),
    let interval := s.sq.cur.interval.toNat
    let tw := s.sq.tw.toNat
    s.sq.phase = .run → s.sq.reqValid = false → s.sq.offset = 0 → s.sq.tcount = 0 → s.sq.tickPending = false →
    1 ≤ interval → s.pipe = .free → s.flushDue = false → s.devReq = none → s.devAns = none → s.lifecycle = .ready →
    s.agenda = framesSchedule interval tw ++ finishSchedule interval ++ rest →
    (∀ k ≤ tw, ∃ t, core.run (k * (interval + 4)) s = .next t ∧ t.sq = { s.sq with offset := BitVec.ofNat 16 k } ∧ t.pipe = .free ∧
      t.err = s.err ∧ t.done = s.done ∧
      (1 ≤ k → ∀ p : Pos, t.fb (physIndex s.rot p) = writeTransform (frameColor Config.font s.sq.cur (k - 1) p) s.lowlight)) ∧
    ∃ t, core.run (tw * (interval + 4) + (interval + 5)) s = .next t ∧ t.sq.phase = .idle ∧ t.sq.offset = s.sq.tw ∧
      t.done = Posted s s.sq.cur.tag 0 0 ∧ t.pipe = .free ∧ t.flushDue = false ∧ t.devReq = none ∧ t.err = s.err ∧ t.agenda = rest ∧
      ∀ i < 64, t.fb i = 0

/-- The settling delay (70_reset R219): from SETTLE with SETTLE_CNT = 1000, exactly 1000 ticks lead to START, and no fewer; and in
SETTLE and in IDLE no step of SEQ is enabled, so that a pick of SEQ does nothing (43_scroll R164-R169; log 4). The schedule is the
model's agenda (log 1). -/
def Obligations.SettlingTakesThousandTicks : Prop :=
  (∀ s : State, s.sq.phase = .settle ∨ s.sq.phase = .idle → SeqMayBegin s → Next .seq s = .next s) ∧
  ∀ (s : State) (rest : List Event), s.sq.phase = .settle → s.sq.settleCnt = 1000 → s.agenda = List.replicate 1000 .tick ++ rest →
    ∀ k ≤ 1000, core.run k s = .next
      { s with
        agenda := List.replicate (1000 - k) .tick ++ rest
        sq := { s.sq with settleCnt := BitVec.ofNat 11 (1000 - k), phase := if k < 1000 then .settle else .start } }

/-! ### The bus -/

/-- A misaligned access, one that is not of 4 bytes, or one to a reserved range answers `buserr` and changes nothing (20_memory R62, R63,
R67; that the answer is kept in a field is log 13). -/
def Obligations.BadAccessAnswersBuserr : Prop :=
  ∀ (s : State) (o : BitVec 12) (size : Nat) (v : Word),
    o.toNat % 4 ≠ 0 ∨ size ≠ 4 ∨ (0x054 ≤ o.toNat ∧ o.toNat ≤ 0x057) ∨ (0x06C ≤ o.toNat ∧ o.toNat ≤ 0x0FF) ∨
      (0x180 ≤ o.toNat ∧ o.toNat ≤ 0x1FF) ∨ (0x500 ≤ o.toNat ∧ o.toNat ≤ 0x7FF) ∨ (0xD00 ≤ o.toNat ∧ o.toNat ≤ 0xFFF) →
    Next (.host (.read o size)) s = .next { s with busResp := .buserr } ∧
    Next (.host (.write o size v)) s = .next { s with busResp := .buserr }

/-- What each register and memory word reads, with no side effect (20_memory R60, R65, R69; 10_state R24-R36, R50-R52). The access is
an event of the agenda (log 1) and its answer is kept in a field (log 13). -/
def Obligations.ReadsAnswerCurrentValues : Prop :=
  ∀ s : State,
    let b2n := fun (b : Bool) => if b then 1 else 0
    let busy := s.pending.valid || decide (s.pipe = .host)
    let life := match s.lifecycle with | .uninit => 0 | .ready => 1 | .closed => 2
    let seqState := match s.sq.phase with | .idle => 0 | .start => 1 | .run => 2 | .finish => 3 | .settle => 4
    let active := if s.sq.phase = .run ∨ s.sq.phase = .finish then s.sq.cur.tag.toNat else 0
    let rows : List (BitVec 12 × Word) :=
      [(0x000, 0x35363546), (0x004, s.cmd),
       (0x008, BitVec.ofNat 32 (b2n busy + 2 * life + 8 * b2n s.lowlight + 16 * s.rot.toNat + 64 * b2n s.haz +
         128 * b2n (decide (s.sq.phase ≠ .idle)))),
       (0x00C, s.err), (0x010, s.regs.pos), (0x014, s.regs.colorRg), (0x018, s.regs.colorB), (0x01C, s.regs.arg),
       (0x020, s.resultRgb), (0x024, s.result565), (0x028, s.regs.mshape), (0x02C, s.regs.rowlen), (0x030, s.regs.textcolRg),
       (0x034, s.regs.textcolB), (0x038, s.regs.backcolRg), (0x03C, s.regs.backcolB), (0x040, s.regs.speed),
       (0x044, s.regs.textlen), (0x048, s.regs.hexlen), (0x04C, s.regs.hexin0), (0x050, s.regs.hexin1), (0x058, s.hexout0),
       (0x05C, s.hexout1),
       (0x060, BitVec.ofNat 32 (seqState + 8 * b2n s.sq.reqValid + 16 * b2n s.sq.tickPending + 256 * active +
         65536 * s.sq.lastTag.toNat)),
       (0x064, BitVec.ofNat 32 (b2n s.done.valid + 2 * b2n s.done.ovf + 16 * s.done.code.toNat + 256 * s.done.tag.toNat +
         65536 * s.done.cause.toNat)),
       (0x068, BitVec.ofNat 32 (s.sq.offset.toNat + 65536 * s.sq.tw.toNat))]
    (∀ row ∈ rows, Next (.host (.read row.1 4)) s = .next { s with busResp := .readOkay row.2 }) ∧
    (∀ k < 32, Next (.host (.read (BitVec.ofNat 12 (0x100 + 4 * k)) 4)) s =
      .next { s with busResp := .readOkay (s.fb (2 * k + 1) ++ s.fb (2 * k)) }) ∧
    ∀ o : BitVec 12, o.toNat % 4 = 0 → memoryOffset o.toNat →
      Next (.host (.read o 4)) s = .next { s with busResp := .readOkay (s.mem.readWord o.toNat) }

/-- With CMD_BUSY = 0, a write to an operand register stores all 32 bits, one to a staging word stores it and no other byte, and one
to CMD latches the command (20_memory R61, 10_state R23, R25, 30_encoding R91). The access is an event of the agenda (log 1) and its
answer is kept in a field (log 13). -/
def Obligations.WritesStoreWhenIdle : Prop :=
  ∀ (s : State) (v : Word), s.pending.valid = false → s.pipe ≠ .host →
    let r := s.regs
    let rows : List (BitVec 12 × OperandRegs) :=
      [(0x010, { r with pos := v }), (0x014, { r with colorRg := v }), (0x018, { r with colorB := v }), (0x01C, { r with arg := v }),
       (0x028, { r with mshape := v }), (0x02C, { r with rowlen := v }), (0x030, { r with textcolRg := v }),
       (0x034, { r with textcolB := v }), (0x038, { r with backcolRg := v }), (0x03C, { r with backcolB := v }),
       (0x040, { r with speed := v }), (0x044, { r with textlen := v }), (0x048, { r with hexlen := v }),
       (0x04C, { r with hexin0 := v }), (0x050, { r with hexin1 := v })]
    (∀ row ∈ rows, Next (.host (.write row.1 4 v)) s = .next { s with regs := row.2, busResp := .writeOkay }) ∧
    (Next (.host (.write 0x004 4 v)) s = .next { s with cmd := v, pending := { valid := true, word := v }, busResp := .writeOkay }) ∧
    ∀ o : BitVec 12, o.toNat % 4 = 0 → (0x200 ≤ o.toNat ∧ o.toNat < 0x400) ∨ (0x800 ≤ o.toNat ∧ o.toNat < 0xD00) →
      ∃ m, Next (.host (.write o 4 v)) s = .next { s with mem := m, busResp := .writeOkay } ∧ m.readWord o.toNat = v ∧
        ∀ a, a < o.toNat ∨ o.toNat + 4 ≤ a → m.readByte a = s.mem.readByte a

/-- The busy interlock (70_reset R210): while CMD_BUSY = 1 a write to CMD, an operand register or a staging word changes nothing but
HAZ; STATUS and SCROLL_DONE writes clear their W1C bits in every state, and writes to read-only registers, FBWIN and MRESULT are
ignored in every state and set no HAZ; the bus answers okay to all of them. The access is an event of the agenda (log 1) and its
answer is kept in a field (log 13). That a SCROLL_DONE write keeps CODE, TAG and CAUSE is the model's choice where the spec's files
disagree (log 24). -/
def Obligations.BusyInterlockDropsWrites : Prop :=
  ∀ (s : State) (v : Word) (o : BitVec 12), o.toNat % 4 = 0 →
    (s.pending.valid = true ∨ s.pipe = .host →
      o = 0x004 ∨ (0x010 ≤ o.toNat ∧ o.toNat ≤ 0x01C) ∨ (0x028 ≤ o.toNat ∧ o.toNat ≤ 0x050) ∨
        (0x200 ≤ o.toNat ∧ o.toNat < 0x400) ∨ (0x800 ≤ o.toNat ∧ o.toNat < 0xD00) →
      Next (.host (.write o 4 v)) s = .next { s with haz := true, busResp := .writeOkay }) ∧
    (o = 0x008 → Next (.host (.write o 4 v)) s = .next { s with haz := s.haz && !v.getLsbD 6, busResp := .writeOkay }) ∧
    (o = 0x064 → Next (.host (.write o 4 v)) s = .next
      { s with
        done := { s.done with valid := s.done.valid && !v.getLsbD 0, ovf := s.done.ovf && !v.getLsbD 1 }
        busResp := .writeOkay }) ∧
    (o ∈ [(0x000 : BitVec 12), 0x00C, 0x020, 0x024, 0x058, 0x05C, 0x060, 0x068] ∨ (0x100 ≤ o.toNat ∧ o.toNat < 0x180) ∨
        (0x400 ≤ o.toNat ∧ o.toNat < 0x500) →
      Next (.host (.write o 4 v)) s = .next { s with busResp := .writeOkay })

/-! ### Reset -/

/-- RESET (10_state R55, 70_reset R204-R206): from any state every piece of state takes its reset value in one step, and a flush that is
due (log 6), an outstanding request, an answer not yet taken up and a command not yet completed (log 5) are withdrawn. The values of the
REQ and CUR payloads, PENDING.word, the bus response, and the agenda and the ARB count that the reset leaves, are the model's (log 7, 13,
15, 20). -/
def Obligations.ResetRestoresResetValues : Prop :=
  (∀ s : State, Next .reset s = .next { State.reset with agenda := s.agenda, arbCount := s.arbCount }) ∧
  let z := State.reset
  z.lifecycle = .uninit ∧ z.devOpen = false ∧ z.rot = 0 ∧ z.lowlight = false ∧ (∀ a, z.mem.readByte a = 0) ∧ (∀ i, z.fb i = 0) ∧
  z.cmd = 0 ∧ z.err = 0 ∧ z.resultRgb = 0 ∧ z.result565 = 0 ∧ z.hexout0 = 0 ∧ z.hexout1 = 0 ∧
  z.regs =
    { pos := 0, colorRg := 0, colorB := 0, arg := 0, mshape := 0, rowlen := 0, textcolRg := 0, textcolB := 0, backcolRg := 0
      backcolB := 0, speed := 0, textlen := 0, hexlen := 0, hexin0 := 0, hexin1 := 0 } ∧
  z.pending.valid = false ∧ z.cmdBusy = false ∧ z.haz = false ∧ z.pipe = .free ∧ z.flushDue = false ∧
  z.devReq = none ∧ z.devAns = none ∧ z.outcome = none ∧
  z.sq.phase = .idle ∧ z.sq.reqValid = false ∧ z.sq.tickPending = false ∧ z.sq.tcount = 0 ∧ z.sq.settleCnt = 0 ∧ z.sq.tw = 0 ∧
  z.sq.offset = 0 ∧ z.sq.lastTag = 0 ∧ z.done = { valid := false, ovf := false, code := 0, tag := 0, cause := 0 }

/-- The state right after reset is safe (10_state R55). What a safe state is is the model's own definition (Safety.lean): that memory
is in canonical form is log 11, and that CMD equals PENDING.word holds at reset by the reset word the model chose (log 15). -/
def Obligations.ResetStateIsSafe : Prop := State.reset.Safe

/-! ### The whole machine -/

/-- Every step keeps memory in its canonical form (the model's form of memory, log 11). -/
def Obligations.StepKeepsMemoryCanonical : Prop := ∀ s t : State, s.mem.wf → step s = .next t → t.mem.wf

/-- From a safe state every step, whatever comes next, answers a next state and that state is safe: FB565 never stops, the pipeline,
the device handle and the sequencer record stay consistent, and the reserved bits and codes are never produced (60_exceptions R178,
R179, R198, R199; 10_state R46, R49). What a safe state is is the model's own definition (Safety.lean; log 11, log 15), the stages of
an operation are those of log 5 and log 6, and what comes next is the agenda's (log 1). -/
def Obligations.EveryStepIsSafe : Prop := ∀ s : State, s.Safe → ∃ t, step s = .next t ∧ t.Safe

/-- No rule reads a payload field the record table marks unspecified (10_state R49): safe states that differ only in those fields step
to states that differ only in those fields. Both states hold the same agenda (log 1). -/
def Obligations.UnspecifiedPayloadsAreNeverRead : Prop :=
  ∀ s t : State, s.Safe → t.Safe → s.maskUnspecified = t.maskUnspecified →
    ∃ s' t', step s = .next s' ∧ step t = .next t' ∧ s'.maskUnspecified = t'.maskUnspecified

/-- The only lifecycle transitions are INIT's, CLOSE's and RESET's (10_state R43): a step that changes LIFECYCLE takes up DevOpen's
`ok`, takes up DevClose's answer, or is a reset. The events are the agenda's (log 1), and that taking up an answer is a step of its
own is log 5. -/
def Obligations.LifecycleMovesOnlyForward : Prop :=
  ∀ s t : State, s.Safe → step s = .next t →
    t.lifecycle = s.lifecycle ∨
    (s.lifecycle = .uninit ∧ t.lifecycle = .ready ∧ s.pipe = .host ∧ s.devAns = some ⟨.openDev, .ok⟩ ∧ t.devAns = none ∧
      t.outcome = some .success) ∨
    (s.lifecycle = .ready ∧ t.lifecycle = .closed ∧ s.pipe = .host ∧ ∃ a, s.devAns = some ⟨.closeDev, a⟩ ∧ t.devAns = none ∧
      t.outcome = some a.report) ∨
    (t.lifecycle = .uninit ∧ ∃ rest, s.agenda = .reset :: rest)

/-- Only SETROT writes ROT and only SETLOWLIGHT writes LOWLIGHT, a reset apart (10_state R44, R45): a step that changes one executed
that command, which was latched and is no longer pending. The reset is an event of the agenda (log 1). -/
def Obligations.OnlyConfigurationCommandsConfigure : Prop :=
  ∀ s t : State, step s = .next t → (∀ rest, s.agenda ≠ .reset :: rest) →
    (t.rot ≠ s.rot → s.pending.valid = true ∧ s.pipe = .free ∧ s.pending.word = 0x03 ∧ t.pending.valid = false) ∧
    (t.lowlight ≠ s.lowlight → s.pending.valid = true ∧ s.pipe = .free ∧ s.pending.word = 0x04 ∧ t.pending.valid = false)

/-- Commands read the operand registers and staging memories and never write them (10_state R23, R38, R40, R41), nor CMD, which only a
CMD write changes (R25), nor HAZ (R47), in their execute step. That this step leaves DEV_OPEN and LIFECYCLE alone as well (R43, R46) is
the model's division of INIT and CLOSE: they are written after DEVICE's answer, in a later step of the same execution (log 5). -/
def Obligations.CommandsNeverWriteOperands : Prop :=
  ∀ (i : Instr) (s t : State), exec i s = .next t →
    t.regs = s.regs ∧ t.cmd = s.cmd ∧ t.haz = s.haz ∧ t.devOpen = s.devOpen ∧ t.lifecycle = s.lifecycle ∧
    ∀ a, (0x200 ≤ a ∧ a < 0x400) ∨ 0x500 ≤ a → t.mem.readByte a = s.mem.readByte a

/-- A command that ends at once with an error changes ERR alone (60_exceptions R185): ILLEGAL, STATE and VALIDATION come before any state
change, and results change only on success. -/
def Obligations.ErrorsChangeOnlyErr : Prop :=
  ∀ (i : Instr) (s t : State), exec i s = .next t → t.pipe = .free → t.err.extractLsb' 0 4 ≠ 0 → t = Ended s t.err

/-- The framebuffer changes only as a pipeline operation begins with PIPE free, and the same step leaves its flush due and not yet
requested; or by a reset (10_state R37, 20_memory R78, R80). That the request is a step of its own is log 6, and the reset is an event of
the agenda (log 1). -/
def Obligations.FramebufferChangesOnlyAsFlushComesDue : Prop :=
  ∀ s t : State, step s = .next t → (∃ i < 64, t.fb i ≠ s.fb i) →
    (s.pipe = .free ∧ t.pipe ≠ .free ∧ t.flushDue = true ∧ t.devReq = s.devReq) ∨ ∃ rest, s.agenda = .reset :: rest

/-- An owner keeps the pipeline until it has taken up DEVICE's answer, a host command until it has completed, or until a reset: no
other operation begins, its flush stays due until it requests it, with the bytes of the framebuffer as they stand, and its request
stands until DEVICE answers that request (20_memory R78, R80, R85; 30_encoding R91). The events are the agenda's (log 1), the stages
those of log 5 and log 6. -/
def Obligations.PipelineOwnerWaitsForAnswer : Prop :=
  ∀ s t : State, step s = .next t → s.pipe ≠ .free →
    (t.pipe = s.pipe ∧
      ((t.flushDue = s.flushDue ∧ t.devReq = s.devReq) ∨
        (s.flushDue = true ∧ s.devReq = none ∧ t.flushDue = false ∧ t.devReq = some (.write s.fbBytes) ∧ t.mem = s.mem) ∨
        (t.flushDue = s.flushDue ∧
          ∃ r a rest, s.devReq = some r ∧ s.agenda = .answer a :: rest ∧ t.devReq = none ∧ t.devAns = some ⟨r, a⟩))) ∨
    (t.pipe = .free ∧ t.devReq = s.devReq ∧
      ((s.pipe = .host ∧ ∃ r, s.outcome = some r ∧ t.outcome = none) ∨
        (s.pipe ≠ .host ∧ ∃ p, s.devAns = some p ∧ t.devAns = none))) ∨
    (t.pipe = .free ∧ t.devReq = none ∧ ∃ rest, s.agenda = .reset :: rest)

/-- ERR is written by the completion of a host command and by RESET, and by nothing else (10_state R27, 60_exceptions R186): a step
that changes it executed and completed the latched command, which is no longer pending, or completed a host command that had waited
for DEVICE, or was a reset. The events are the agenda's (log 1), the complete step of a command that waited is log 5. -/
def Obligations.ErrIsWrittenOnlyByHostCommands : Prop :=
  ∀ s t : State, step s = .next t → t.err ≠ s.err →
    (s.pending.valid = true ∧ s.pipe = .free ∧ t.pending.valid = false ∧ t.pipe = .free) ∨
    (s.pipe = .host ∧ t.pipe = .free ∧ ∃ r, s.outcome = some r ∧ t.outcome = none ∧ t.err = errWord s.latchedOp r) ∨
    ∃ rest, s.agenda = .reset :: rest

/-- The device handle discipline (60_exceptions R199): a new DevWrite or DevClose is made only while DEV_OPEN = 1 and a new DevOpen only
while DEV_OPEN = 0, and never while a request is outstanding, an answer waits to be taken up, or a command is to be completed (log 5). A
DevOpen or DevClose is made as an operation begins with PIPE free, a DevWrite by the owner of PIPE whose flush is due (log 6), with the
framebuffer as it stands. -/
def Obligations.DeviceRequestsFollowHandle : Prop :=
  ∀ s t : State, s.Safe → step s = .next t → t.devReq ≠ s.devReq → t.devReq ≠ none →
    s.devReq = none ∧ s.devAns = none ∧ s.outcome = none ∧
    (t.devReq = some .openDev → s.pipe = .free ∧ s.devOpen = false) ∧
    (t.devReq = some .closeDev → s.pipe = .free ∧ s.devOpen = true) ∧
    ∀ b, t.devReq = some (.write b) → s.pipe ≠ .free ∧ s.flushDue = true ∧ s.devOpen = true ∧ b = s.fbBytes
end

