-- ==== Sys2Proof/Laws/Memory.lean ====
section
/-!
SUPPORT. The laws of memory: read after write for bytes, halves, words and pixels, for every memory; and the canonical form, which
every write keeps and in which equal readings are equal data.
-/

namespace Sys2Proof.Machine

/-! ### One byte -/

@[simp] theorem Memory.readByte_nil (a : Nat) : Memory.readByte [] a = 0 := rfl

theorem Memory.readByte_cons (c : Host.Cell) (m : Memory) (a : Nat) :
    Memory.readByte (c :: m) a = if c.1 = a then c.2 else Memory.readByte m a := rfl

theorem Memory.readByte_eraseByte (m : Memory) (a b : Nat) :
    (m.eraseByte a).readByte b = if b = a then 0 else m.readByte b := by
  induction m with
  | nil => simp [Memory.eraseByte]
  | cons c rest ih =>
    simp only [Memory.eraseByte, List.filter_cons] at ih ⊢
    by_cases hc : c.1 = a <;> by_cases hb : b = a <;> simp_all [Memory.readByte_cons]
    intro h
    exact absurd h.symm hb

theorem Memory.readByte_insertByte (m : Memory) (a : Nat) (v : Byte) (h : ∀ c ∈ m, c.1 ≠ a) (b : Nat) :
    (m.insertByte a v).readByte b = if b = a then v else m.readByte b := by
  induction m with
  | nil => simp [Memory.insertByte, Memory.readByte_cons, eq_comm]
  | cons c rest ih =>
    have hc : c.1 ≠ a := h c (by simp)
    have ih := ih (fun d hd => h d (by simp [hd]))
    unfold Memory.insertByte
    split
    · simp [Memory.readByte_cons, eq_comm]
    · rw [Memory.readByte_cons, ih, Memory.readByte_cons]
      by_cases hb : b = a
      · subst hb; simp [hc]
      · simp [hb]

theorem Memory.not_mem_eraseByte (m : Memory) (a : Nat) : ∀ c ∈ m.eraseByte a, c.1 ≠ a := by
  intro c hc
  simpa using (List.mem_filter.mp hc).2

/-- Reading a byte after writing one: what was written there, and what stood everywhere else. -/
@[simp] theorem Memory.readByte_writeByte (m : Memory) (a : Nat) (v : Byte) (b : Nat) :
    (m.writeByte a v).readByte b = if b = a then v else m.readByte b := by
  unfold Memory.writeByte
  split
  · rename_i hv; rw [Memory.readByte_eraseByte, hv]
  · rw [Memory.readByte_insertByte _ _ _ (Memory.not_mem_eraseByte m a), Memory.readByte_eraseByte]
    by_cases hb : b = a <;> simp [hb]

/-! ### Halves, words and pixels -/

theorem Memory.readByte_writeHalf (m : Memory) (a : Nat) (v : Half) (b : Nat) :
    (m.writeHalf a v).readByte b =
      if b = a then v.extractLsb' 0 8 else if b = a + 1 then v.extractLsb' 8 8 else m.readByte b := by
  unfold Memory.writeHalf
  by_cases h1 : b = a + 1 <;> by_cases h0 : b = a <;> simp_all

/-- A half is its two bytes. -/
theorem half_of_bytes (v : Half) : v.extractLsb' 8 8 ++ v.extractLsb' 0 8 = v := by
  apply BitVec.eq_of_getLsbD_eq
  intro i hi
  simp only [BitVec.getLsbD_append, BitVec.getLsbD_extractLsb']
  by_cases h : i < 8
  · simp [h]
  · simp only [h, if_false]
    have : i - 8 < 8 := by omega
    have e : 8 + (i - 8) = i := by omega
    simp [this, e]

/-- A word is its two halves. -/
theorem word_of_halves (v : Word) : v.extractLsb' 16 16 ++ v.extractLsb' 0 16 = v := by
  apply BitVec.eq_of_getLsbD_eq
  intro i hi
  simp only [BitVec.getLsbD_append, BitVec.getLsbD_extractLsb']
  by_cases h : i < 16
  · simp [h]
  · simp only [h, if_false]
    have : i - 16 < 16 := by omega
    have e : 16 + (i - 16) = i := by omega
    simp [this, e]

@[simp] theorem Memory.readHalf_writeHalf_same (m : Memory) (a : Nat) (v : Half) : (m.writeHalf a v).readHalf a = v := by
  simp [Memory.readHalf, Memory.readByte_writeHalf, half_of_bytes]

/-- A half two bytes or more away is not changed. -/
theorem Memory.readHalf_writeHalf_other (m : Memory) (a b : Nat) (v : Half) (h : b + 2 ≤ a ∨ a + 2 ≤ b) :
    (m.writeHalf a v).readHalf b = m.readHalf b := by
  have h0 : b ≠ a := by omega
  have h1 : b ≠ a + 1 := by omega
  have h2 : b + 1 ≠ a := by omega
  have h3 : b + 1 ≠ a + 1 := by omega
  unfold Memory.readHalf
  rw [Memory.readByte_writeHalf, Memory.readByte_writeHalf, if_neg h0, if_neg h1, if_neg h2, if_neg h3]

@[simp] theorem Memory.readWord_writeWord_same (m : Memory) (a : Nat) (v : Word) : (m.writeWord a v).readWord a = v := by
  unfold Memory.readWord Memory.writeWord
  rw [Memory.readHalf_writeHalf_same, Memory.readHalf_writeHalf_other _ _ _ _ (by omega), Memory.readHalf_writeHalf_same,
    word_of_halves]

/-- A word four bytes or more away is not changed. -/
theorem Memory.readWord_writeWord_other (m : Memory) (a b : Nat) (v : Word) (h : b + 4 ≤ a ∨ a + 4 ≤ b) :
    (m.writeWord a v).readWord b = m.readWord b := by
  unfold Memory.readWord Memory.writeWord
  repeat rw [Memory.readHalf_writeHalf_other _ _ _ _ (by omega)]

/-- A byte outside the four written is not changed. -/
theorem Memory.readByte_writeWord_other (m : Memory) (a b : Nat) (v : Word) (h : b < a ∨ a + 4 ≤ b) :
    (m.writeWord a v).readByte b = m.readByte b := by
  unfold Memory.writeWord
  rw [Memory.readByte_writeHalf, Memory.readByte_writeHalf, if_neg (by omega), if_neg (by omega), if_neg (by omega),
    if_neg (by omega)]

/-- Reading a pixel word after writing one. -/
@[simp] theorem Memory.pixel_setPixel (m : Memory) (i j : Nat) (v : Half) :
    (m.setPixel i v).pixel j = if j = i then v else m.pixel j := by
  unfold Memory.pixel Memory.setPixel
  split
  · rename_i h; rw [h, Memory.readHalf_writeHalf_same]
  · exact Memory.readHalf_writeHalf_other _ _ _ _ (by omega)

/-- A byte outside the pixel's two is not changed. -/
theorem Memory.readByte_setPixel_other (m : Memory) (i a : Nat) (v : Half) (h : a ≠ fbBase + 2 * i) (h' : a ≠ fbBase + 2 * i + 1) :
    (m.setPixel i v).readByte a = m.readByte a := by
  unfold Memory.setPixel
  rw [Memory.readByte_writeHalf, if_neg h, if_neg h']

@[simp] theorem Memory.setPixels_nil (m : Memory) : m.setPixels [] = m := rfl

theorem Memory.setPixels_cons (m : Memory) (p : Nat × Half) (ps : List (Nat × Half)) :
    m.setPixels (p :: ps) = (m.setPixel p.1 p.2).setPixels ps := rfl

/-- An index no entry names keeps its pixel word. -/
theorem Memory.pixel_setPixels_other (m : Memory) (ps : List (Nat × Half)) (i : Nat) (h : ∀ p ∈ ps, p.1 ≠ i) :
    (m.setPixels ps).pixel i = m.pixel i := by
  induction ps generalizing m with
  | nil => rfl
  | cons p ps ih =>
    rw [Memory.setPixels_cons, ih _ (fun q hq => h q (by simp [hq])), Memory.pixel_setPixel, if_neg (h p (by simp)).symm]

/-- An index whose last entry is `(i, v)` holds `v`. -/
theorem Memory.pixel_setPixels_last (m : Memory) (ps qs : List (Nat × Half)) (i : Nat) (v : Half) (h : ∀ q ∈ qs, q.1 ≠ i) :
    (m.setPixels (ps ++ (i, v) :: qs)).pixel i = v := by
  unfold Memory.setPixels
  rw [List.foldl_append, List.foldl_cons]
  have := Memory.pixel_setPixels_other ((m.setPixels ps).setPixel i v) qs i h
  unfold Memory.setPixels at this
  rw [this, Memory.pixel_setPixel, if_pos rfl]

/-- A byte that belongs to no entry's pixel is not changed. -/
theorem Memory.readByte_setPixels_other (m : Memory) (ps : List (Nat × Half)) (a : Nat)
    (h : ∀ p ∈ ps, a ≠ fbBase + 2 * p.1 ∧ a ≠ fbBase + 2 * p.1 + 1) : (m.setPixels ps).readByte a = m.readByte a := by
  induction ps generalizing m with
  | nil => rfl
  | cons p ps ih =>
    rw [Memory.setPixels_cons, ih _ (fun q hq => h q (by simp [hq])),
      Memory.readByte_setPixel_other _ _ _ _ (h p (by simp)).1 (h p (by simp)).2]

/-! ### The canonical form -/

theorem Memory.wf_nil : Memory.wf [] := by simp [Memory.wf]

theorem Memory.wf_eraseByte (m : Memory) (a : Nat) (h : m.wf) : (m.eraseByte a).wf :=
  ⟨h.1.filter _, fun c hc => h.2 c (List.mem_filter.mp hc).1⟩

theorem Memory.mem_insertByte (m : Memory) (a : Nat) (v : Byte) (c : Host.Cell) :
    c ∈ m.insertByte a v ↔ c = (a, v) ∨ c ∈ m := by
  induction m with
  | nil => simp [Memory.insertByte]
  | cons d rest ih =>
    unfold Memory.insertByte
    split
    · simp
    · rw [List.mem_cons, ih, List.mem_cons]; tauto

theorem Memory.wf_insertByte (m : Memory) (a : Nat) (v : Byte) (h : m.wf) (hv : v ≠ 0) (ha : ∀ c ∈ m, c.1 ≠ a) :
    (m.insertByte a v).wf := by
  refine ⟨?_, fun c hc => ?_⟩
  · have h1 := h.1
    clear h
    induction m with
    | nil => simp [Memory.insertByte]
    | cons d rest ih =>
      have hd := List.pairwise_cons.mp h1
      have hda : d.1 ≠ a := ha d (by simp)
      unfold Memory.insertByte
      split
      · rename_i hlt
        refine List.pairwise_cons.mpr ⟨fun e he => ?_, h1⟩
        rcases List.mem_cons.mp he with rfl | he
        · exact hlt
        · exact Nat.lt_trans hlt (hd.1 e he)
      · rename_i hge
        refine List.pairwise_cons.mpr ⟨fun e he => ?_, ih (fun c hc => ha c (by simp [hc])) hd.2⟩
        rcases (Memory.mem_insertByte _ _ _ _).mp he with rfl | he
        · show d.1 < a; omega
        · exact hd.1 e he
  · rcases (Memory.mem_insertByte _ _ _ _).mp hc with rfl | hc
    · exact hv
    · exact h.2 c hc

/-- Writing a byte keeps the canonical form. -/
theorem Memory.wf_writeByte (m : Memory) (a : Nat) (v : Byte) (h : m.wf) : (m.writeByte a v).wf := by
  unfold Memory.writeByte
  split
  · exact Memory.wf_eraseByte m a h
  · rename_i hv
    exact Memory.wf_insertByte _ a v (Memory.wf_eraseByte m a h) hv (Memory.not_mem_eraseByte m a)

/-- Writing a half keeps the canonical form. -/
theorem Memory.wf_writeHalf (m : Memory) (a : Nat) (v : Half) (h : m.wf) : (m.writeHalf a v).wf :=
  Memory.wf_writeByte _ _ _ (Memory.wf_writeByte _ _ _ h)

/-- Writing a word keeps the canonical form. -/
theorem Memory.wf_writeWord (m : Memory) (a : Nat) (v : Word) (h : m.wf) : (m.writeWord a v).wf :=
  Memory.wf_writeHalf _ _ _ (Memory.wf_writeHalf _ _ _ h)

/-- Writing a pixel word keeps the canonical form. -/
theorem Memory.wf_setPixel (m : Memory) (i : Nat) (v : Half) (h : m.wf) : (m.setPixel i v).wf := Memory.wf_writeHalf _ _ _ h

/-- Writing pixel words keeps the canonical form. -/
theorem Memory.wf_setPixels (m : Memory) (ps : List (Nat × Half)) (h : m.wf) : (m.setPixels ps).wf := by
  induction ps generalizing m with
  | nil => exact h
  | cons p ps ih => exact ih _ (Memory.wf_setPixel _ _ _ h)

/-- Every offset a write lists is one that was listed or one of those written. -/
theorem Memory.mem_writeByte (m : Memory) (a : Nat) (v : Byte) (c : Host.Cell) (h : c ∈ m.writeByte a v) : c.1 = a ∨ c ∈ m := by
  unfold Memory.writeByte at h
  split at h
  · exact .inr (List.mem_filter.mp h).1
  · rcases (Memory.mem_insertByte _ _ _ _).mp h with rfl | h
    · exact .inl rfl
    · exact .inr (List.mem_filter.mp h).1

theorem Memory.mem_writeHalf (m : Memory) (a : Nat) (v : Half) (c : Host.Cell) (h : c ∈ m.writeHalf a v) :
    (a ≤ c.1 ∧ c.1 < a + 2) ∨ c ∈ m := by
  rcases Memory.mem_writeByte _ _ _ _ h with h | h
  · exact .inl ⟨by omega, by omega⟩
  · rcases Memory.mem_writeByte _ _ _ _ h with h | h
    · exact .inl ⟨by omega, by omega⟩
    · exact .inr h

theorem Memory.mem_writeWord (m : Memory) (a : Nat) (v : Word) (c : Host.Cell) (h : c ∈ m.writeWord a v) :
    (a ≤ c.1 ∧ c.1 < a + 4) ∨ c ∈ m := by
  rcases Memory.mem_writeHalf _ _ _ _ h with h | h
  · exact .inl ⟨by omega, by omega⟩
  · rcases Memory.mem_writeHalf _ _ _ _ h with h | h
    · exact .inl ⟨by omega, by omega⟩
    · exact .inr h

theorem Memory.mem_setPixels (m : Memory) (ps : List (Nat × Half)) (c : Host.Cell) (h : c ∈ m.setPixels ps) :
    (∃ p ∈ ps, fbBase + 2 * p.1 ≤ c.1 ∧ c.1 < fbBase + 2 * p.1 + 2) ∨ c ∈ m := by
  induction ps generalizing m with
  | nil => exact .inr h
  | cons p ps ih =>
    rcases ih _ h with ⟨q, hq, hc⟩ | h
    · exact .inl ⟨q, by simp [hq], hc⟩
    · rcases Memory.mem_writeHalf _ _ _ _ h with h | h
      · exact .inl ⟨p, by simp, h⟩
      · exact .inr h

/-- A byte below every listed offset reads 0. -/
theorem Memory.readByte_eq_zero (m : Memory) (a : Nat) (h : ∀ c ∈ m, a < c.1) : m.readByte a = 0 := by
  induction m with
  | nil => rfl
  | cons c rest ih =>
    have hc := h c (by simp)
    rw [Memory.readByte_cons, if_neg (by omega), ih (fun d hd => h d (by simp [hd]))]

/-- Canonical memories that read alike are the same data. -/
theorem Memory.eq_of_readByte_eq : ∀ (m m' : Memory), m.wf → m'.wf → (∀ a, m.readByte a = m'.readByte a) → m = m'
  | [], [], _, _, _ => rfl
  | [], c :: rest, _, h', he => by
    have := he c.1
    rw [Memory.readByte_cons, if_pos rfl] at this
    exact absurd this.symm (h'.2 c (by simp))
  | c :: rest, [], h, _, he => by
    have := he c.1
    rw [Memory.readByte_cons, if_pos rfl] at this
    exact absurd this (h.2 c (by simp))
  | c :: rest, d :: rest', h, h', he => by
    have hc := List.pairwise_cons.mp h.1
    have hd := List.pairwise_cons.mp h'.1
    have key : c.1 = d.1 := by
      rcases Nat.lt_trichotomy c.1 d.1 with hlt | heq | hgt
      · have := he c.1
        rw [Memory.readByte_cons, if_pos rfl, Memory.readByte_eq_zero (d :: rest') c.1] at this
        · exact absurd this (h.2 c (by simp))
        · intro e hmem
          rcases List.mem_cons.mp hmem with rfl | hmem
          · exact hlt
          · exact Nat.lt_trans hlt (hd.1 e hmem)
      · exact heq
      · have := he d.1
        rw [Memory.readByte_cons d, if_pos rfl, Memory.readByte_eq_zero (c :: rest) d.1] at this
        · exact absurd this.symm (h'.2 d (by simp))
        · intro e hmem
          rcases List.mem_cons.mp hmem with rfl | hmem
          · exact hgt
          · exact Nat.lt_trans hgt (hc.1 e hmem)
    have hv : c.2 = d.2 := by
      have := he c.1
      rwa [Memory.readByte_cons, if_pos rfl, Memory.readByte_cons, if_pos key.symm] at this
    have hrest : rest = rest' := by
      refine Memory.eq_of_readByte_eq rest rest' ⟨hc.2, fun e he' => h.2 e (by simp [he'])⟩
        ⟨hd.2, fun e he' => h'.2 e (by simp [he'])⟩ (fun a => ?_)
      by_cases ha : c.1 = a
      · rw [Memory.readByte_eq_zero rest a (fun e hmem => ha ▸ hc.1 e hmem),
          Memory.readByte_eq_zero rest' a (fun e hmem => ha ▸ key ▸ hd.1 e hmem)]
      · have := he a
        rwa [Memory.readByte_cons, if_neg ha, Memory.readByte_cons, if_neg (key ▸ ha)] at this
    rw [hrest, Prod.ext key hv]

end Sys2Proof.Machine
end

