-- ==== Sys2Proof/Laws/State.lean ====
section
/-!
SUPPORT. One lemma per field per named update of State, each true by rfl (fillPixels through putPixels), so that no proof unfolds a record update.
-/

namespace Sys2Proof.Machine

/-! ### complete -/

@[simp] theorem State.complete_regs (r : Report) (s : State) : (s.complete r).regs = s.regs := rfl
@[simp] theorem State.complete_cmd (r : Report) (s : State) : (s.complete r).cmd = s.cmd := rfl
@[simp] theorem State.complete_err (r : Report) (s : State) : (s.complete r).err = errWord s.latchedOp r := rfl
@[simp] theorem State.complete_resultRgb (r : Report) (s : State) : (s.complete r).resultRgb = s.resultRgb := rfl
@[simp] theorem State.complete_result565 (r : Report) (s : State) : (s.complete r).result565 = s.result565 := rfl
@[simp] theorem State.complete_hexout0 (r : Report) (s : State) : (s.complete r).hexout0 = s.hexout0 := rfl
@[simp] theorem State.complete_hexout1 (r : Report) (s : State) : (s.complete r).hexout1 = s.hexout1 := rfl
@[simp] theorem State.complete_mem (r : Report) (s : State) : (s.complete r).mem = s.mem := rfl
@[simp] theorem State.complete_lifecycle (r : Report) (s : State) : (s.complete r).lifecycle = s.lifecycle := rfl
@[simp] theorem State.complete_rot (r : Report) (s : State) : (s.complete r).rot = s.rot := rfl
@[simp] theorem State.complete_lowlight (r : Report) (s : State) : (s.complete r).lowlight = s.lowlight := rfl
@[simp] theorem State.complete_devOpen (r : Report) (s : State) : (s.complete r).devOpen = s.devOpen := rfl
@[simp] theorem State.complete_pending (r : Report) (s : State) : (s.complete r).pending = { s.pending with valid := false } := rfl
@[simp] theorem State.complete_haz (r : Report) (s : State) : (s.complete r).haz = s.haz := rfl
@[simp] theorem State.complete_pipe (r : Report) (s : State) : (s.complete r).pipe = .free := rfl
@[simp] theorem State.complete_flushDue (r : Report) (s : State) : (s.complete r).flushDue = s.flushDue := rfl
@[simp] theorem State.complete_devReq (r : Report) (s : State) : (s.complete r).devReq = s.devReq := rfl
@[simp] theorem State.complete_devAns (r : Report) (s : State) : (s.complete r).devAns = s.devAns := rfl
@[simp] theorem State.complete_outcome (r : Report) (s : State) : (s.complete r).outcome = s.outcome := rfl
@[simp] theorem State.complete_sq (r : Report) (s : State) : (s.complete r).sq = s.sq := rfl
@[simp] theorem State.complete_done (r : Report) (s : State) : (s.complete r).done = s.done := rfl
@[simp] theorem State.complete_busResp (r : Report) (s : State) : (s.complete r).busResp = s.busResp := rfl
@[simp] theorem State.complete_agenda (r : Report) (s : State) : (s.complete r).agenda = s.agenda := rfl
@[simp] theorem State.complete_arbCount (r : Report) (s : State) : (s.complete r).arbCount = s.arbCount := rfl

/-! ### ends -/

@[simp] theorem State.ends_regs (r : Report) (s : State) : (s.ends r).regs = s.regs := rfl
@[simp] theorem State.ends_cmd (r : Report) (s : State) : (s.ends r).cmd = s.cmd := rfl
@[simp] theorem State.ends_err (r : Report) (s : State) : (s.ends r).err = s.err := rfl
@[simp] theorem State.ends_resultRgb (r : Report) (s : State) : (s.ends r).resultRgb = s.resultRgb := rfl
@[simp] theorem State.ends_result565 (r : Report) (s : State) : (s.ends r).result565 = s.result565 := rfl
@[simp] theorem State.ends_hexout0 (r : Report) (s : State) : (s.ends r).hexout0 = s.hexout0 := rfl
@[simp] theorem State.ends_hexout1 (r : Report) (s : State) : (s.ends r).hexout1 = s.hexout1 := rfl
@[simp] theorem State.ends_mem (r : Report) (s : State) : (s.ends r).mem = s.mem := rfl
@[simp] theorem State.ends_lifecycle (r : Report) (s : State) : (s.ends r).lifecycle = s.lifecycle := rfl
@[simp] theorem State.ends_rot (r : Report) (s : State) : (s.ends r).rot = s.rot := rfl
@[simp] theorem State.ends_lowlight (r : Report) (s : State) : (s.ends r).lowlight = s.lowlight := rfl
@[simp] theorem State.ends_devOpen (r : Report) (s : State) : (s.ends r).devOpen = s.devOpen := rfl
@[simp] theorem State.ends_pending (r : Report) (s : State) : (s.ends r).pending = s.pending := rfl
@[simp] theorem State.ends_haz (r : Report) (s : State) : (s.ends r).haz = s.haz := rfl
@[simp] theorem State.ends_pipe (r : Report) (s : State) : (s.ends r).pipe = s.pipe := rfl
@[simp] theorem State.ends_flushDue (r : Report) (s : State) : (s.ends r).flushDue = s.flushDue := rfl
@[simp] theorem State.ends_devReq (r : Report) (s : State) : (s.ends r).devReq = s.devReq := rfl
@[simp] theorem State.ends_devAns (r : Report) (s : State) : (s.ends r).devAns = s.devAns := rfl
@[simp] theorem State.ends_outcome (r : Report) (s : State) : (s.ends r).outcome = some r := rfl
@[simp] theorem State.ends_sq (r : Report) (s : State) : (s.ends r).sq = s.sq := rfl
@[simp] theorem State.ends_done (r : Report) (s : State) : (s.ends r).done = s.done := rfl
@[simp] theorem State.ends_busResp (r : Report) (s : State) : (s.ends r).busResp = s.busResp := rfl
@[simp] theorem State.ends_agenda (r : Report) (s : State) : (s.ends r).agenda = s.agenda := rfl
@[simp] theorem State.ends_arbCount (r : Report) (s : State) : (s.ends r).arbCount = s.arbCount := rfl

/-! ### completeStep -/

@[simp] theorem State.completeStep_regs (r : Report) (s : State) : (s.completeStep r).regs = s.regs := rfl
@[simp] theorem State.completeStep_cmd (r : Report) (s : State) : (s.completeStep r).cmd = s.cmd := rfl
@[simp] theorem State.completeStep_err (r : Report) (s : State) : (s.completeStep r).err = errWord s.latchedOp r := rfl
@[simp] theorem State.completeStep_resultRgb (r : Report) (s : State) : (s.completeStep r).resultRgb = s.resultRgb := rfl
@[simp] theorem State.completeStep_result565 (r : Report) (s : State) : (s.completeStep r).result565 = s.result565 := rfl
@[simp] theorem State.completeStep_hexout0 (r : Report) (s : State) : (s.completeStep r).hexout0 = s.hexout0 := rfl
@[simp] theorem State.completeStep_hexout1 (r : Report) (s : State) : (s.completeStep r).hexout1 = s.hexout1 := rfl
@[simp] theorem State.completeStep_mem (r : Report) (s : State) : (s.completeStep r).mem = s.mem := rfl
@[simp] theorem State.completeStep_lifecycle (r : Report) (s : State) : (s.completeStep r).lifecycle = s.lifecycle := rfl
@[simp] theorem State.completeStep_rot (r : Report) (s : State) : (s.completeStep r).rot = s.rot := rfl
@[simp] theorem State.completeStep_lowlight (r : Report) (s : State) : (s.completeStep r).lowlight = s.lowlight := rfl
@[simp] theorem State.completeStep_devOpen (r : Report) (s : State) : (s.completeStep r).devOpen = s.devOpen := rfl
@[simp] theorem State.completeStep_pending (r : Report) (s : State) : (s.completeStep r).pending = { s.pending with valid := false } := rfl
@[simp] theorem State.completeStep_haz (r : Report) (s : State) : (s.completeStep r).haz = s.haz := rfl
@[simp] theorem State.completeStep_pipe (r : Report) (s : State) : (s.completeStep r).pipe = .free := rfl
@[simp] theorem State.completeStep_flushDue (r : Report) (s : State) : (s.completeStep r).flushDue = s.flushDue := rfl
@[simp] theorem State.completeStep_devReq (r : Report) (s : State) : (s.completeStep r).devReq = s.devReq := rfl
@[simp] theorem State.completeStep_devAns (r : Report) (s : State) : (s.completeStep r).devAns = s.devAns := rfl
@[simp] theorem State.completeStep_outcome (r : Report) (s : State) : (s.completeStep r).outcome = none := rfl
@[simp] theorem State.completeStep_sq (r : Report) (s : State) : (s.completeStep r).sq = s.sq := rfl
@[simp] theorem State.completeStep_done (r : Report) (s : State) : (s.completeStep r).done = s.done := rfl
@[simp] theorem State.completeStep_busResp (r : Report) (s : State) : (s.completeStep r).busResp = s.busResp := rfl
@[simp] theorem State.completeStep_agenda (r : Report) (s : State) : (s.completeStep r).agenda = s.agenda := rfl
@[simp] theorem State.completeStep_arbCount (r : Report) (s : State) : (s.completeStep r).arbCount = s.arbCount := rfl

/-! ### await -/

@[simp] theorem State.await_regs (r : DevRequest) (s : State) : (s.await r).regs = s.regs := rfl
@[simp] theorem State.await_cmd (r : DevRequest) (s : State) : (s.await r).cmd = s.cmd := rfl
@[simp] theorem State.await_err (r : DevRequest) (s : State) : (s.await r).err = s.err := rfl
@[simp] theorem State.await_resultRgb (r : DevRequest) (s : State) : (s.await r).resultRgb = s.resultRgb := rfl
@[simp] theorem State.await_result565 (r : DevRequest) (s : State) : (s.await r).result565 = s.result565 := rfl
@[simp] theorem State.await_hexout0 (r : DevRequest) (s : State) : (s.await r).hexout0 = s.hexout0 := rfl
@[simp] theorem State.await_hexout1 (r : DevRequest) (s : State) : (s.await r).hexout1 = s.hexout1 := rfl
@[simp] theorem State.await_mem (r : DevRequest) (s : State) : (s.await r).mem = s.mem := rfl
@[simp] theorem State.await_lifecycle (r : DevRequest) (s : State) : (s.await r).lifecycle = s.lifecycle := rfl
@[simp] theorem State.await_rot (r : DevRequest) (s : State) : (s.await r).rot = s.rot := rfl
@[simp] theorem State.await_lowlight (r : DevRequest) (s : State) : (s.await r).lowlight = s.lowlight := rfl
@[simp] theorem State.await_devOpen (r : DevRequest) (s : State) : (s.await r).devOpen = s.devOpen := rfl
@[simp] theorem State.await_pending (r : DevRequest) (s : State) : (s.await r).pending = { s.pending with valid := false } := rfl
@[simp] theorem State.await_haz (r : DevRequest) (s : State) : (s.await r).haz = s.haz := rfl
@[simp] theorem State.await_pipe (r : DevRequest) (s : State) : (s.await r).pipe = .host := rfl
@[simp] theorem State.await_flushDue (r : DevRequest) (s : State) : (s.await r).flushDue = s.flushDue := rfl
@[simp] theorem State.await_devReq (r : DevRequest) (s : State) : (s.await r).devReq = some r := rfl
@[simp] theorem State.await_devAns (r : DevRequest) (s : State) : (s.await r).devAns = s.devAns := rfl
@[simp] theorem State.await_outcome (r : DevRequest) (s : State) : (s.await r).outcome = s.outcome := rfl
@[simp] theorem State.await_sq (r : DevRequest) (s : State) : (s.await r).sq = s.sq := rfl
@[simp] theorem State.await_done (r : DevRequest) (s : State) : (s.await r).done = s.done := rfl
@[simp] theorem State.await_busResp (r : DevRequest) (s : State) : (s.await r).busResp = s.busResp := rfl
@[simp] theorem State.await_agenda (r : DevRequest) (s : State) : (s.await r).agenda = s.agenda := rfl
@[simp] theorem State.await_arbCount (r : DevRequest) (s : State) : (s.await r).arbCount = s.arbCount := rfl

/-! ### flush -/

@[simp] theorem State.flush_regs (s : State) : (s.flush).regs = s.regs := rfl
@[simp] theorem State.flush_cmd (s : State) : (s.flush).cmd = s.cmd := rfl
@[simp] theorem State.flush_err (s : State) : (s.flush).err = s.err := rfl
@[simp] theorem State.flush_resultRgb (s : State) : (s.flush).resultRgb = s.resultRgb := rfl
@[simp] theorem State.flush_result565 (s : State) : (s.flush).result565 = s.result565 := rfl
@[simp] theorem State.flush_hexout0 (s : State) : (s.flush).hexout0 = s.hexout0 := rfl
@[simp] theorem State.flush_hexout1 (s : State) : (s.flush).hexout1 = s.hexout1 := rfl
@[simp] theorem State.flush_mem (s : State) : (s.flush).mem = s.mem := rfl
@[simp] theorem State.flush_lifecycle (s : State) : (s.flush).lifecycle = s.lifecycle := rfl
@[simp] theorem State.flush_rot (s : State) : (s.flush).rot = s.rot := rfl
@[simp] theorem State.flush_lowlight (s : State) : (s.flush).lowlight = s.lowlight := rfl
@[simp] theorem State.flush_devOpen (s : State) : (s.flush).devOpen = s.devOpen := rfl
@[simp] theorem State.flush_pending (s : State) : (s.flush).pending = { s.pending with valid := false } := rfl
@[simp] theorem State.flush_haz (s : State) : (s.flush).haz = s.haz := rfl
@[simp] theorem State.flush_pipe (s : State) : (s.flush).pipe = .host := rfl
@[simp] theorem State.flush_flushDue (s : State) : (s.flush).flushDue = true := rfl
@[simp] theorem State.flush_devReq (s : State) : (s.flush).devReq = s.devReq := rfl
@[simp] theorem State.flush_devAns (s : State) : (s.flush).devAns = s.devAns := rfl
@[simp] theorem State.flush_outcome (s : State) : (s.flush).outcome = s.outcome := rfl
@[simp] theorem State.flush_sq (s : State) : (s.flush).sq = s.sq := rfl
@[simp] theorem State.flush_done (s : State) : (s.flush).done = s.done := rfl
@[simp] theorem State.flush_busResp (s : State) : (s.flush).busResp = s.busResp := rfl
@[simp] theorem State.flush_agenda (s : State) : (s.flush).agenda = s.agenda := rfl
@[simp] theorem State.flush_arbCount (s : State) : (s.flush).arbCount = s.arbCount := rfl

/-! ### requestFlush -/

@[simp] theorem State.requestFlush_regs (s : State) : (s.requestFlush).regs = s.regs := rfl
@[simp] theorem State.requestFlush_cmd (s : State) : (s.requestFlush).cmd = s.cmd := rfl
@[simp] theorem State.requestFlush_err (s : State) : (s.requestFlush).err = s.err := rfl
@[simp] theorem State.requestFlush_resultRgb (s : State) : (s.requestFlush).resultRgb = s.resultRgb := rfl
@[simp] theorem State.requestFlush_result565 (s : State) : (s.requestFlush).result565 = s.result565 := rfl
@[simp] theorem State.requestFlush_hexout0 (s : State) : (s.requestFlush).hexout0 = s.hexout0 := rfl
@[simp] theorem State.requestFlush_hexout1 (s : State) : (s.requestFlush).hexout1 = s.hexout1 := rfl
@[simp] theorem State.requestFlush_mem (s : State) : (s.requestFlush).mem = s.mem := rfl
@[simp] theorem State.requestFlush_lifecycle (s : State) : (s.requestFlush).lifecycle = s.lifecycle := rfl
@[simp] theorem State.requestFlush_rot (s : State) : (s.requestFlush).rot = s.rot := rfl
@[simp] theorem State.requestFlush_lowlight (s : State) : (s.requestFlush).lowlight = s.lowlight := rfl
@[simp] theorem State.requestFlush_devOpen (s : State) : (s.requestFlush).devOpen = s.devOpen := rfl
@[simp] theorem State.requestFlush_pending (s : State) : (s.requestFlush).pending = s.pending := rfl
@[simp] theorem State.requestFlush_haz (s : State) : (s.requestFlush).haz = s.haz := rfl
@[simp] theorem State.requestFlush_pipe (s : State) : (s.requestFlush).pipe = s.pipe := rfl
@[simp] theorem State.requestFlush_flushDue (s : State) : (s.requestFlush).flushDue = false := rfl
@[simp] theorem State.requestFlush_devReq (s : State) : (s.requestFlush).devReq = some (.write s.fbBytes) := rfl
@[simp] theorem State.requestFlush_devAns (s : State) : (s.requestFlush).devAns = s.devAns := rfl
@[simp] theorem State.requestFlush_outcome (s : State) : (s.requestFlush).outcome = s.outcome := rfl
@[simp] theorem State.requestFlush_sq (s : State) : (s.requestFlush).sq = s.sq := rfl
@[simp] theorem State.requestFlush_done (s : State) : (s.requestFlush).done = s.done := rfl
@[simp] theorem State.requestFlush_busResp (s : State) : (s.requestFlush).busResp = s.busResp := rfl
@[simp] theorem State.requestFlush_agenda (s : State) : (s.requestFlush).agenda = s.agenda := rfl
@[simp] theorem State.requestFlush_arbCount (s : State) : (s.requestFlush).arbCount = s.arbCount := rfl

/-! ### putPixels -/

@[simp] theorem State.putPixels_regs (ps : List (Nat × Half)) (s : State) : (s.putPixels ps).regs = s.regs := rfl
@[simp] theorem State.putPixels_cmd (ps : List (Nat × Half)) (s : State) : (s.putPixels ps).cmd = s.cmd := rfl
@[simp] theorem State.putPixels_err (ps : List (Nat × Half)) (s : State) : (s.putPixels ps).err = s.err := rfl
@[simp] theorem State.putPixels_resultRgb (ps : List (Nat × Half)) (s : State) : (s.putPixels ps).resultRgb = s.resultRgb := rfl
@[simp] theorem State.putPixels_result565 (ps : List (Nat × Half)) (s : State) : (s.putPixels ps).result565 = s.result565 := rfl
@[simp] theorem State.putPixels_hexout0 (ps : List (Nat × Half)) (s : State) : (s.putPixels ps).hexout0 = s.hexout0 := rfl
@[simp] theorem State.putPixels_hexout1 (ps : List (Nat × Half)) (s : State) : (s.putPixels ps).hexout1 = s.hexout1 := rfl
@[simp] theorem State.putPixels_mem (ps : List (Nat × Half)) (s : State) : (s.putPixels ps).mem = s.mem.setPixels ps := rfl
@[simp] theorem State.putPixels_lifecycle (ps : List (Nat × Half)) (s : State) : (s.putPixels ps).lifecycle = s.lifecycle := rfl
@[simp] theorem State.putPixels_rot (ps : List (Nat × Half)) (s : State) : (s.putPixels ps).rot = s.rot := rfl
@[simp] theorem State.putPixels_lowlight (ps : List (Nat × Half)) (s : State) : (s.putPixels ps).lowlight = s.lowlight := rfl
@[simp] theorem State.putPixels_devOpen (ps : List (Nat × Half)) (s : State) : (s.putPixels ps).devOpen = s.devOpen := rfl
@[simp] theorem State.putPixels_pending (ps : List (Nat × Half)) (s : State) : (s.putPixels ps).pending = s.pending := rfl
@[simp] theorem State.putPixels_haz (ps : List (Nat × Half)) (s : State) : (s.putPixels ps).haz = s.haz := rfl
@[simp] theorem State.putPixels_pipe (ps : List (Nat × Half)) (s : State) : (s.putPixels ps).pipe = s.pipe := rfl
@[simp] theorem State.putPixels_flushDue (ps : List (Nat × Half)) (s : State) : (s.putPixels ps).flushDue = s.flushDue := rfl
@[simp] theorem State.putPixels_devReq (ps : List (Nat × Half)) (s : State) : (s.putPixels ps).devReq = s.devReq := rfl
@[simp] theorem State.putPixels_devAns (ps : List (Nat × Half)) (s : State) : (s.putPixels ps).devAns = s.devAns := rfl
@[simp] theorem State.putPixels_outcome (ps : List (Nat × Half)) (s : State) : (s.putPixels ps).outcome = s.outcome := rfl
@[simp] theorem State.putPixels_sq (ps : List (Nat × Half)) (s : State) : (s.putPixels ps).sq = s.sq := rfl
@[simp] theorem State.putPixels_done (ps : List (Nat × Half)) (s : State) : (s.putPixels ps).done = s.done := rfl
@[simp] theorem State.putPixels_busResp (ps : List (Nat × Half)) (s : State) : (s.putPixels ps).busResp = s.busResp := rfl
@[simp] theorem State.putPixels_agenda (ps : List (Nat × Half)) (s : State) : (s.putPixels ps).agenda = s.agenda := rfl
@[simp] theorem State.putPixels_arbCount (ps : List (Nat × Half)) (s : State) : (s.putPixels ps).arbCount = s.arbCount := rfl

/-! ### putColors -/

@[simp] theorem State.putColors_regs (ws : List (Pos × Rgb)) (s : State) : (s.putColors ws).regs = s.regs := rfl
@[simp] theorem State.putColors_cmd (ws : List (Pos × Rgb)) (s : State) : (s.putColors ws).cmd = s.cmd := rfl
@[simp] theorem State.putColors_err (ws : List (Pos × Rgb)) (s : State) : (s.putColors ws).err = s.err := rfl
@[simp] theorem State.putColors_resultRgb (ws : List (Pos × Rgb)) (s : State) : (s.putColors ws).resultRgb = s.resultRgb := rfl
@[simp] theorem State.putColors_result565 (ws : List (Pos × Rgb)) (s : State) : (s.putColors ws).result565 = s.result565 := rfl
@[simp] theorem State.putColors_hexout0 (ws : List (Pos × Rgb)) (s : State) : (s.putColors ws).hexout0 = s.hexout0 := rfl
@[simp] theorem State.putColors_hexout1 (ws : List (Pos × Rgb)) (s : State) : (s.putColors ws).hexout1 = s.hexout1 := rfl
@[simp] theorem State.putColors_mem (ws : List (Pos × Rgb)) (s : State) : (s.putColors ws).mem = s.mem.setPixels (s.transform ws) := rfl
@[simp] theorem State.putColors_lifecycle (ws : List (Pos × Rgb)) (s : State) : (s.putColors ws).lifecycle = s.lifecycle := rfl
@[simp] theorem State.putColors_rot (ws : List (Pos × Rgb)) (s : State) : (s.putColors ws).rot = s.rot := rfl
@[simp] theorem State.putColors_lowlight (ws : List (Pos × Rgb)) (s : State) : (s.putColors ws).lowlight = s.lowlight := rfl
@[simp] theorem State.putColors_devOpen (ws : List (Pos × Rgb)) (s : State) : (s.putColors ws).devOpen = s.devOpen := rfl
@[simp] theorem State.putColors_pending (ws : List (Pos × Rgb)) (s : State) : (s.putColors ws).pending = s.pending := rfl
@[simp] theorem State.putColors_haz (ws : List (Pos × Rgb)) (s : State) : (s.putColors ws).haz = s.haz := rfl
@[simp] theorem State.putColors_pipe (ws : List (Pos × Rgb)) (s : State) : (s.putColors ws).pipe = s.pipe := rfl
@[simp] theorem State.putColors_flushDue (ws : List (Pos × Rgb)) (s : State) : (s.putColors ws).flushDue = s.flushDue := rfl
@[simp] theorem State.putColors_devReq (ws : List (Pos × Rgb)) (s : State) : (s.putColors ws).devReq = s.devReq := rfl
@[simp] theorem State.putColors_devAns (ws : List (Pos × Rgb)) (s : State) : (s.putColors ws).devAns = s.devAns := rfl
@[simp] theorem State.putColors_outcome (ws : List (Pos × Rgb)) (s : State) : (s.putColors ws).outcome = s.outcome := rfl
@[simp] theorem State.putColors_sq (ws : List (Pos × Rgb)) (s : State) : (s.putColors ws).sq = s.sq := rfl
@[simp] theorem State.putColors_done (ws : List (Pos × Rgb)) (s : State) : (s.putColors ws).done = s.done := rfl
@[simp] theorem State.putColors_busResp (ws : List (Pos × Rgb)) (s : State) : (s.putColors ws).busResp = s.busResp := rfl
@[simp] theorem State.putColors_agenda (ws : List (Pos × Rgb)) (s : State) : (s.putColors ws).agenda = s.agenda := rfl
@[simp] theorem State.putColors_arbCount (ws : List (Pos × Rgb)) (s : State) : (s.putColors ws).arbCount = s.arbCount := rfl

/-! ### fillPixels -/

@[simp] theorem State.fillPixels_regs (p : Half) (s : State) : (s.fillPixels p).regs = s.regs := State.putPixels_regs _ _
@[simp] theorem State.fillPixels_cmd (p : Half) (s : State) : (s.fillPixels p).cmd = s.cmd := State.putPixels_cmd _ _
@[simp] theorem State.fillPixels_err (p : Half) (s : State) : (s.fillPixels p).err = s.err := State.putPixels_err _ _
@[simp] theorem State.fillPixels_resultRgb (p : Half) (s : State) : (s.fillPixels p).resultRgb = s.resultRgb := State.putPixels_resultRgb _ _
@[simp] theorem State.fillPixels_result565 (p : Half) (s : State) : (s.fillPixels p).result565 = s.result565 := State.putPixels_result565 _ _
@[simp] theorem State.fillPixels_hexout0 (p : Half) (s : State) : (s.fillPixels p).hexout0 = s.hexout0 := State.putPixels_hexout0 _ _
@[simp] theorem State.fillPixels_hexout1 (p : Half) (s : State) : (s.fillPixels p).hexout1 = s.hexout1 := State.putPixels_hexout1 _ _
@[simp] theorem State.fillPixels_mem (p : Half) (s : State) : (s.fillPixels p).mem = s.mem.setPixels ((List.range Config.pixelCount).map (fun i => (i, p))) := State.putPixels_mem _ _
@[simp] theorem State.fillPixels_lifecycle (p : Half) (s : State) : (s.fillPixels p).lifecycle = s.lifecycle := State.putPixels_lifecycle _ _
@[simp] theorem State.fillPixels_rot (p : Half) (s : State) : (s.fillPixels p).rot = s.rot := State.putPixels_rot _ _
@[simp] theorem State.fillPixels_lowlight (p : Half) (s : State) : (s.fillPixels p).lowlight = s.lowlight := State.putPixels_lowlight _ _
@[simp] theorem State.fillPixels_devOpen (p : Half) (s : State) : (s.fillPixels p).devOpen = s.devOpen := State.putPixels_devOpen _ _
@[simp] theorem State.fillPixels_pending (p : Half) (s : State) : (s.fillPixels p).pending = s.pending := State.putPixels_pending _ _
@[simp] theorem State.fillPixels_haz (p : Half) (s : State) : (s.fillPixels p).haz = s.haz := State.putPixels_haz _ _
@[simp] theorem State.fillPixels_pipe (p : Half) (s : State) : (s.fillPixels p).pipe = s.pipe := State.putPixels_pipe _ _
@[simp] theorem State.fillPixels_flushDue (p : Half) (s : State) : (s.fillPixels p).flushDue = s.flushDue := State.putPixels_flushDue _ _
@[simp] theorem State.fillPixels_devReq (p : Half) (s : State) : (s.fillPixels p).devReq = s.devReq := State.putPixels_devReq _ _
@[simp] theorem State.fillPixels_devAns (p : Half) (s : State) : (s.fillPixels p).devAns = s.devAns := State.putPixels_devAns _ _
@[simp] theorem State.fillPixels_outcome (p : Half) (s : State) : (s.fillPixels p).outcome = s.outcome := State.putPixels_outcome _ _
@[simp] theorem State.fillPixels_sq (p : Half) (s : State) : (s.fillPixels p).sq = s.sq := State.putPixels_sq _ _
@[simp] theorem State.fillPixels_done (p : Half) (s : State) : (s.fillPixels p).done = s.done := State.putPixels_done _ _
@[simp] theorem State.fillPixels_busResp (p : Half) (s : State) : (s.fillPixels p).busResp = s.busResp := State.putPixels_busResp _ _
@[simp] theorem State.fillPixels_agenda (p : Half) (s : State) : (s.fillPixels p).agenda = s.agenda := State.putPixels_agenda _ _
@[simp] theorem State.fillPixels_arbCount (p : Half) (s : State) : (s.fillPixels p).arbCount = s.arbCount := State.putPixels_arbCount _ _

/-! ### post -/

@[simp] theorem State.post_regs (tag : Byte) (code : ErrCode) (cause : Byte) (s : State) : (s.post tag code cause).regs = s.regs := rfl
@[simp] theorem State.post_cmd (tag : Byte) (code : ErrCode) (cause : Byte) (s : State) : (s.post tag code cause).cmd = s.cmd := rfl
@[simp] theorem State.post_err (tag : Byte) (code : ErrCode) (cause : Byte) (s : State) : (s.post tag code cause).err = s.err := rfl
@[simp] theorem State.post_resultRgb (tag : Byte) (code : ErrCode) (cause : Byte) (s : State) : (s.post tag code cause).resultRgb = s.resultRgb := rfl
@[simp] theorem State.post_result565 (tag : Byte) (code : ErrCode) (cause : Byte) (s : State) : (s.post tag code cause).result565 = s.result565 := rfl
@[simp] theorem State.post_hexout0 (tag : Byte) (code : ErrCode) (cause : Byte) (s : State) : (s.post tag code cause).hexout0 = s.hexout0 := rfl
@[simp] theorem State.post_hexout1 (tag : Byte) (code : ErrCode) (cause : Byte) (s : State) : (s.post tag code cause).hexout1 = s.hexout1 := rfl
@[simp] theorem State.post_mem (tag : Byte) (code : ErrCode) (cause : Byte) (s : State) : (s.post tag code cause).mem = s.mem := rfl
@[simp] theorem State.post_lifecycle (tag : Byte) (code : ErrCode) (cause : Byte) (s : State) : (s.post tag code cause).lifecycle = s.lifecycle := rfl
@[simp] theorem State.post_rot (tag : Byte) (code : ErrCode) (cause : Byte) (s : State) : (s.post tag code cause).rot = s.rot := rfl
@[simp] theorem State.post_lowlight (tag : Byte) (code : ErrCode) (cause : Byte) (s : State) : (s.post tag code cause).lowlight = s.lowlight := rfl
@[simp] theorem State.post_devOpen (tag : Byte) (code : ErrCode) (cause : Byte) (s : State) : (s.post tag code cause).devOpen = s.devOpen := rfl
@[simp] theorem State.post_pending (tag : Byte) (code : ErrCode) (cause : Byte) (s : State) : (s.post tag code cause).pending = s.pending := rfl
@[simp] theorem State.post_haz (tag : Byte) (code : ErrCode) (cause : Byte) (s : State) : (s.post tag code cause).haz = s.haz := rfl
@[simp] theorem State.post_pipe (tag : Byte) (code : ErrCode) (cause : Byte) (s : State) : (s.post tag code cause).pipe = s.pipe := rfl
@[simp] theorem State.post_flushDue (tag : Byte) (code : ErrCode) (cause : Byte) (s : State) : (s.post tag code cause).flushDue = s.flushDue := rfl
@[simp] theorem State.post_devReq (tag : Byte) (code : ErrCode) (cause : Byte) (s : State) : (s.post tag code cause).devReq = s.devReq := rfl
@[simp] theorem State.post_devAns (tag : Byte) (code : ErrCode) (cause : Byte) (s : State) : (s.post tag code cause).devAns = s.devAns := rfl
@[simp] theorem State.post_outcome (tag : Byte) (code : ErrCode) (cause : Byte) (s : State) : (s.post tag code cause).outcome = s.outcome := rfl
@[simp] theorem State.post_sq (tag : Byte) (code : ErrCode) (cause : Byte) (s : State) : (s.post tag code cause).sq = s.sq := rfl
@[simp] theorem State.post_done (tag : Byte) (code : ErrCode) (cause : Byte) (s : State) : (s.post tag code cause).done = { valid := true, ovf := s.done.ovf || s.done.valid, code := code.bits, tag := tag, cause := cause } := rfl
@[simp] theorem State.post_busResp (tag : Byte) (code : ErrCode) (cause : Byte) (s : State) : (s.post tag code cause).busResp = s.busResp := rfl
@[simp] theorem State.post_agenda (tag : Byte) (code : ErrCode) (cause : Byte) (s : State) : (s.post tag code cause).agenda = s.agenda := rfl
@[simp] theorem State.post_arbCount (tag : Byte) (code : ErrCode) (cause : Byte) (s : State) : (s.post tag code cause).arbCount = s.arbCount := rfl

/-! ### latch -/

@[simp] theorem State.latch_regs (w : Word) (s : State) : (s.latch w).regs = s.regs := rfl
@[simp] theorem State.latch_cmd (w : Word) (s : State) : (s.latch w).cmd = w := rfl
@[simp] theorem State.latch_err (w : Word) (s : State) : (s.latch w).err = s.err := rfl
@[simp] theorem State.latch_resultRgb (w : Word) (s : State) : (s.latch w).resultRgb = s.resultRgb := rfl
@[simp] theorem State.latch_result565 (w : Word) (s : State) : (s.latch w).result565 = s.result565 := rfl
@[simp] theorem State.latch_hexout0 (w : Word) (s : State) : (s.latch w).hexout0 = s.hexout0 := rfl
@[simp] theorem State.latch_hexout1 (w : Word) (s : State) : (s.latch w).hexout1 = s.hexout1 := rfl
@[simp] theorem State.latch_mem (w : Word) (s : State) : (s.latch w).mem = s.mem := rfl
@[simp] theorem State.latch_lifecycle (w : Word) (s : State) : (s.latch w).lifecycle = s.lifecycle := rfl
@[simp] theorem State.latch_rot (w : Word) (s : State) : (s.latch w).rot = s.rot := rfl
@[simp] theorem State.latch_lowlight (w : Word) (s : State) : (s.latch w).lowlight = s.lowlight := rfl
@[simp] theorem State.latch_devOpen (w : Word) (s : State) : (s.latch w).devOpen = s.devOpen := rfl
@[simp] theorem State.latch_pending (w : Word) (s : State) : (s.latch w).pending = { valid := true, word := w } := rfl
@[simp] theorem State.latch_haz (w : Word) (s : State) : (s.latch w).haz = s.haz := rfl
@[simp] theorem State.latch_pipe (w : Word) (s : State) : (s.latch w).pipe = s.pipe := rfl
@[simp] theorem State.latch_flushDue (w : Word) (s : State) : (s.latch w).flushDue = s.flushDue := rfl
@[simp] theorem State.latch_devReq (w : Word) (s : State) : (s.latch w).devReq = s.devReq := rfl
@[simp] theorem State.latch_devAns (w : Word) (s : State) : (s.latch w).devAns = s.devAns := rfl
@[simp] theorem State.latch_outcome (w : Word) (s : State) : (s.latch w).outcome = s.outcome := rfl
@[simp] theorem State.latch_sq (w : Word) (s : State) : (s.latch w).sq = s.sq := rfl
@[simp] theorem State.latch_done (w : Word) (s : State) : (s.latch w).done = s.done := rfl
@[simp] theorem State.latch_busResp (w : Word) (s : State) : (s.latch w).busResp = s.busResp := rfl
@[simp] theorem State.latch_agenda (w : Word) (s : State) : (s.latch w).agenda = s.agenda := rfl
@[simp] theorem State.latch_arbCount (w : Word) (s : State) : (s.latch w).arbCount = s.arbCount := rfl

/-! ### writeStatus -/

@[simp] theorem State.writeStatus_regs (v : Word) (s : State) : (s.writeStatus v).regs = s.regs := rfl
@[simp] theorem State.writeStatus_cmd (v : Word) (s : State) : (s.writeStatus v).cmd = s.cmd := rfl
@[simp] theorem State.writeStatus_err (v : Word) (s : State) : (s.writeStatus v).err = s.err := rfl
@[simp] theorem State.writeStatus_resultRgb (v : Word) (s : State) : (s.writeStatus v).resultRgb = s.resultRgb := rfl
@[simp] theorem State.writeStatus_result565 (v : Word) (s : State) : (s.writeStatus v).result565 = s.result565 := rfl
@[simp] theorem State.writeStatus_hexout0 (v : Word) (s : State) : (s.writeStatus v).hexout0 = s.hexout0 := rfl
@[simp] theorem State.writeStatus_hexout1 (v : Word) (s : State) : (s.writeStatus v).hexout1 = s.hexout1 := rfl
@[simp] theorem State.writeStatus_mem (v : Word) (s : State) : (s.writeStatus v).mem = s.mem := rfl
@[simp] theorem State.writeStatus_lifecycle (v : Word) (s : State) : (s.writeStatus v).lifecycle = s.lifecycle := rfl
@[simp] theorem State.writeStatus_rot (v : Word) (s : State) : (s.writeStatus v).rot = s.rot := rfl
@[simp] theorem State.writeStatus_lowlight (v : Word) (s : State) : (s.writeStatus v).lowlight = s.lowlight := rfl
@[simp] theorem State.writeStatus_devOpen (v : Word) (s : State) : (s.writeStatus v).devOpen = s.devOpen := rfl
@[simp] theorem State.writeStatus_pending (v : Word) (s : State) : (s.writeStatus v).pending = s.pending := rfl
@[simp] theorem State.writeStatus_haz (v : Word) (s : State) : (s.writeStatus v).haz = (s.haz && !v.getLsbD 6) := rfl
@[simp] theorem State.writeStatus_pipe (v : Word) (s : State) : (s.writeStatus v).pipe = s.pipe := rfl
@[simp] theorem State.writeStatus_flushDue (v : Word) (s : State) : (s.writeStatus v).flushDue = s.flushDue := rfl
@[simp] theorem State.writeStatus_devReq (v : Word) (s : State) : (s.writeStatus v).devReq = s.devReq := rfl
@[simp] theorem State.writeStatus_devAns (v : Word) (s : State) : (s.writeStatus v).devAns = s.devAns := rfl
@[simp] theorem State.writeStatus_outcome (v : Word) (s : State) : (s.writeStatus v).outcome = s.outcome := rfl
@[simp] theorem State.writeStatus_sq (v : Word) (s : State) : (s.writeStatus v).sq = s.sq := rfl
@[simp] theorem State.writeStatus_done (v : Word) (s : State) : (s.writeStatus v).done = s.done := rfl
@[simp] theorem State.writeStatus_busResp (v : Word) (s : State) : (s.writeStatus v).busResp = s.busResp := rfl
@[simp] theorem State.writeStatus_agenda (v : Word) (s : State) : (s.writeStatus v).agenda = s.agenda := rfl
@[simp] theorem State.writeStatus_arbCount (v : Word) (s : State) : (s.writeStatus v).arbCount = s.arbCount := rfl

/-! ### writeScrollDone -/

@[simp] theorem State.writeScrollDone_regs (v : Word) (s : State) : (s.writeScrollDone v).regs = s.regs := rfl
@[simp] theorem State.writeScrollDone_cmd (v : Word) (s : State) : (s.writeScrollDone v).cmd = s.cmd := rfl
@[simp] theorem State.writeScrollDone_err (v : Word) (s : State) : (s.writeScrollDone v).err = s.err := rfl
@[simp] theorem State.writeScrollDone_resultRgb (v : Word) (s : State) : (s.writeScrollDone v).resultRgb = s.resultRgb := rfl
@[simp] theorem State.writeScrollDone_result565 (v : Word) (s : State) : (s.writeScrollDone v).result565 = s.result565 := rfl
@[simp] theorem State.writeScrollDone_hexout0 (v : Word) (s : State) : (s.writeScrollDone v).hexout0 = s.hexout0 := rfl
@[simp] theorem State.writeScrollDone_hexout1 (v : Word) (s : State) : (s.writeScrollDone v).hexout1 = s.hexout1 := rfl
@[simp] theorem State.writeScrollDone_mem (v : Word) (s : State) : (s.writeScrollDone v).mem = s.mem := rfl
@[simp] theorem State.writeScrollDone_lifecycle (v : Word) (s : State) : (s.writeScrollDone v).lifecycle = s.lifecycle := rfl
@[simp] theorem State.writeScrollDone_rot (v : Word) (s : State) : (s.writeScrollDone v).rot = s.rot := rfl
@[simp] theorem State.writeScrollDone_lowlight (v : Word) (s : State) : (s.writeScrollDone v).lowlight = s.lowlight := rfl
@[simp] theorem State.writeScrollDone_devOpen (v : Word) (s : State) : (s.writeScrollDone v).devOpen = s.devOpen := rfl
@[simp] theorem State.writeScrollDone_pending (v : Word) (s : State) : (s.writeScrollDone v).pending = s.pending := rfl
@[simp] theorem State.writeScrollDone_haz (v : Word) (s : State) : (s.writeScrollDone v).haz = s.haz := rfl
@[simp] theorem State.writeScrollDone_pipe (v : Word) (s : State) : (s.writeScrollDone v).pipe = s.pipe := rfl
@[simp] theorem State.writeScrollDone_flushDue (v : Word) (s : State) : (s.writeScrollDone v).flushDue = s.flushDue := rfl
@[simp] theorem State.writeScrollDone_devReq (v : Word) (s : State) : (s.writeScrollDone v).devReq = s.devReq := rfl
@[simp] theorem State.writeScrollDone_devAns (v : Word) (s : State) : (s.writeScrollDone v).devAns = s.devAns := rfl
@[simp] theorem State.writeScrollDone_outcome (v : Word) (s : State) : (s.writeScrollDone v).outcome = s.outcome := rfl
@[simp] theorem State.writeScrollDone_sq (v : Word) (s : State) : (s.writeScrollDone v).sq = s.sq := rfl
@[simp] theorem State.writeScrollDone_done (v : Word) (s : State) : (s.writeScrollDone v).done = { s.done with valid := s.done.valid && !v.getLsbD 0, ovf := s.done.ovf && !v.getLsbD 1 } := rfl
@[simp] theorem State.writeScrollDone_busResp (v : Word) (s : State) : (s.writeScrollDone v).busResp = s.busResp := rfl
@[simp] theorem State.writeScrollDone_agenda (v : Word) (s : State) : (s.writeScrollDone v).agenda = s.agenda := rfl
@[simp] theorem State.writeScrollDone_arbCount (v : Word) (s : State) : (s.writeScrollDone v).arbCount = s.arbCount := rfl

/-! ### storeWord -/

@[simp] theorem State.storeWord_regs (o : Nat) (v : Word) (s : State) : (s.storeWord o v).regs = s.regs := rfl
@[simp] theorem State.storeWord_cmd (o : Nat) (v : Word) (s : State) : (s.storeWord o v).cmd = s.cmd := rfl
@[simp] theorem State.storeWord_err (o : Nat) (v : Word) (s : State) : (s.storeWord o v).err = s.err := rfl
@[simp] theorem State.storeWord_resultRgb (o : Nat) (v : Word) (s : State) : (s.storeWord o v).resultRgb = s.resultRgb := rfl
@[simp] theorem State.storeWord_result565 (o : Nat) (v : Word) (s : State) : (s.storeWord o v).result565 = s.result565 := rfl
@[simp] theorem State.storeWord_hexout0 (o : Nat) (v : Word) (s : State) : (s.storeWord o v).hexout0 = s.hexout0 := rfl
@[simp] theorem State.storeWord_hexout1 (o : Nat) (v : Word) (s : State) : (s.storeWord o v).hexout1 = s.hexout1 := rfl
@[simp] theorem State.storeWord_mem (o : Nat) (v : Word) (s : State) : (s.storeWord o v).mem = s.mem.writeWord o v := rfl
@[simp] theorem State.storeWord_lifecycle (o : Nat) (v : Word) (s : State) : (s.storeWord o v).lifecycle = s.lifecycle := rfl
@[simp] theorem State.storeWord_rot (o : Nat) (v : Word) (s : State) : (s.storeWord o v).rot = s.rot := rfl
@[simp] theorem State.storeWord_lowlight (o : Nat) (v : Word) (s : State) : (s.storeWord o v).lowlight = s.lowlight := rfl
@[simp] theorem State.storeWord_devOpen (o : Nat) (v : Word) (s : State) : (s.storeWord o v).devOpen = s.devOpen := rfl
@[simp] theorem State.storeWord_pending (o : Nat) (v : Word) (s : State) : (s.storeWord o v).pending = s.pending := rfl
@[simp] theorem State.storeWord_haz (o : Nat) (v : Word) (s : State) : (s.storeWord o v).haz = s.haz := rfl
@[simp] theorem State.storeWord_pipe (o : Nat) (v : Word) (s : State) : (s.storeWord o v).pipe = s.pipe := rfl
@[simp] theorem State.storeWord_flushDue (o : Nat) (v : Word) (s : State) : (s.storeWord o v).flushDue = s.flushDue := rfl
@[simp] theorem State.storeWord_devReq (o : Nat) (v : Word) (s : State) : (s.storeWord o v).devReq = s.devReq := rfl
@[simp] theorem State.storeWord_devAns (o : Nat) (v : Word) (s : State) : (s.storeWord o v).devAns = s.devAns := rfl
@[simp] theorem State.storeWord_outcome (o : Nat) (v : Word) (s : State) : (s.storeWord o v).outcome = s.outcome := rfl
@[simp] theorem State.storeWord_sq (o : Nat) (v : Word) (s : State) : (s.storeWord o v).sq = s.sq := rfl
@[simp] theorem State.storeWord_done (o : Nat) (v : Word) (s : State) : (s.storeWord o v).done = s.done := rfl
@[simp] theorem State.storeWord_busResp (o : Nat) (v : Word) (s : State) : (s.storeWord o v).busResp = s.busResp := rfl
@[simp] theorem State.storeWord_agenda (o : Nat) (v : Word) (s : State) : (s.storeWord o v).agenda = s.agenda := rfl
@[simp] theorem State.storeWord_arbCount (o : Nat) (v : Word) (s : State) : (s.storeWord o v).arbCount = s.arbCount := rfl

/-! ### seqFlush -/

@[simp] theorem State.seqFlush_regs (k : SeqKind) (s : State) : (s.seqFlush k).regs = s.regs := rfl
@[simp] theorem State.seqFlush_cmd (k : SeqKind) (s : State) : (s.seqFlush k).cmd = s.cmd := rfl
@[simp] theorem State.seqFlush_err (k : SeqKind) (s : State) : (s.seqFlush k).err = s.err := rfl
@[simp] theorem State.seqFlush_resultRgb (k : SeqKind) (s : State) : (s.seqFlush k).resultRgb = s.resultRgb := rfl
@[simp] theorem State.seqFlush_result565 (k : SeqKind) (s : State) : (s.seqFlush k).result565 = s.result565 := rfl
@[simp] theorem State.seqFlush_hexout0 (k : SeqKind) (s : State) : (s.seqFlush k).hexout0 = s.hexout0 := rfl
@[simp] theorem State.seqFlush_hexout1 (k : SeqKind) (s : State) : (s.seqFlush k).hexout1 = s.hexout1 := rfl
@[simp] theorem State.seqFlush_mem (k : SeqKind) (s : State) : (s.seqFlush k).mem = s.mem := rfl
@[simp] theorem State.seqFlush_lifecycle (k : SeqKind) (s : State) : (s.seqFlush k).lifecycle = s.lifecycle := rfl
@[simp] theorem State.seqFlush_rot (k : SeqKind) (s : State) : (s.seqFlush k).rot = s.rot := rfl
@[simp] theorem State.seqFlush_lowlight (k : SeqKind) (s : State) : (s.seqFlush k).lowlight = s.lowlight := rfl
@[simp] theorem State.seqFlush_devOpen (k : SeqKind) (s : State) : (s.seqFlush k).devOpen = s.devOpen := rfl
@[simp] theorem State.seqFlush_pending (k : SeqKind) (s : State) : (s.seqFlush k).pending = s.pending := rfl
@[simp] theorem State.seqFlush_haz (k : SeqKind) (s : State) : (s.seqFlush k).haz = s.haz := rfl
@[simp] theorem State.seqFlush_pipe (k : SeqKind) (s : State) : (s.seqFlush k).pipe = .seq k := rfl
@[simp] theorem State.seqFlush_flushDue (k : SeqKind) (s : State) : (s.seqFlush k).flushDue = true := rfl
@[simp] theorem State.seqFlush_devReq (k : SeqKind) (s : State) : (s.seqFlush k).devReq = s.devReq := rfl
@[simp] theorem State.seqFlush_devAns (k : SeqKind) (s : State) : (s.seqFlush k).devAns = s.devAns := rfl
@[simp] theorem State.seqFlush_outcome (k : SeqKind) (s : State) : (s.seqFlush k).outcome = s.outcome := rfl
@[simp] theorem State.seqFlush_sq (k : SeqKind) (s : State) : (s.seqFlush k).sq = s.sq := rfl
@[simp] theorem State.seqFlush_done (k : SeqKind) (s : State) : (s.seqFlush k).done = s.done := rfl
@[simp] theorem State.seqFlush_busResp (k : SeqKind) (s : State) : (s.seqFlush k).busResp = s.busResp := rfl
@[simp] theorem State.seqFlush_agenda (k : SeqKind) (s : State) : (s.seqFlush k).agenda = s.agenda := rfl
@[simp] theorem State.seqFlush_arbCount (k : SeqKind) (s : State) : (s.seqFlush k).arbCount = s.arbCount := rfl

end Sys2Proof.Machine
end

