-- ==== Sys2Proof/Laws/Words.lean ====
section
/-!
SUPPORT. Bit fields and concatenations as arithmetic on numbers: one lemma per shape of word the model builds.
-/

namespace Sys2Proof.Machine

/-- A field of a word as a quotient and a remainder. -/
theorem field_toNat (w : Word) (lo n : Nat) : (w.extractLsb' lo n).toNat = w.toNat / 2 ^ lo % 2 ^ n := by
  simp [BitVec.extractLsb'_toNat, Nat.shiftRight_eq_div_pow]

/-- A field of a 16-bit value as a quotient and a remainder. -/
theorem halfField_toNat (w : Half) (lo n : Nat) : (w.extractLsb' lo n).toNat = w.toNat / 2 ^ lo % 2 ^ n := by
  simp [BitVec.extractLsb'_toNat, Nat.shiftRight_eq_div_pow]

/-- Concatenation as a sum. -/
theorem toNat_cat {m n : Nat} (x : BitVec m) (y : BitVec n) : (x ++ y).toNat = x.toNat * 2 ^ n + y.toNat := by
  rw [BitVec.toNat_append, ← Nat.shiftLeft_add_eq_or_of_lt y.isLt, Nat.shiftLeft_eq]

/-- Two bytes make a half. -/
theorem toNat_cat2 (a b : Byte) : (a ++ b : Half).toNat = a.toNat * 2 ^ 8 + b.toNat := toNat_cat a b

/-- Two halves make a word. -/
theorem toNat_catHalves (a b : Half) : (a ++ b : Word).toNat = a.toNat * 2 ^ 16 + b.toNat := toNat_cat a b

/-- Four bytes make a word. -/
theorem toNat_cat4 (a b c d : Byte) :
    (a ++ b ++ c ++ d : Word).toNat = a.toNat * 2 ^ 24 + b.toNat * 2 ^ 16 + c.toNat * 2 ^ 8 + d.toNat := by
  have h1 := toNat_cat (a ++ b ++ c) d
  have h2 := toNat_cat (a ++ b) c
  have h3 := toNat_cat a b
  refine h1.trans ?_
  rw [h2, h3]
  omega

/-- The RESULT_RGB word as a number (10_state R35). -/
theorem rgbWord_toNat (c : Rgb) : (rgbWord c).toNat = c.b.toNat * 2 ^ 16 + c.g.toNat * 2 ^ 8 + c.r.toNat := by
  refine (toNat_cat4 0 c.b c.g c.r).trans ?_
  simp

/-- The ERR word as a number (10_state R27). -/
theorem errWord_toNat (op : Byte) (r : Report) :
    (errWord op r).toNat = r.index.toNat * 2 ^ 24 + op.toNat * 2 ^ 16 + r.cause.toNat * 2 ^ 8 + r.code.bits.toNat := by
  have h1 := toNat_cat (r.index ++ op ++ r.cause ++ (0 : BitVec 4)) r.code.bits
  have h2 := toNat_cat (r.index ++ op ++ r.cause) (0 : BitVec 4)
  have h3 := toNat_cat (r.index ++ op) r.cause
  have h4 := toNat_cat r.index op
  refine h1.trans ?_
  rw [h2, h3, h4, show (0 : BitVec 4).toNat = 0 from rfl]
  omega

/-- packColor as a number: the three quantized channels in their lanes (40_codec R107). -/
theorem packColor_toNat (c : Rgb) : (packColor c).toNat = c.r.toNat / 8 * 2048 + c.g.toNat / 4 * 32 + c.b.toNat / 8 := by
  have hr := c.r.isLt
  have hg := c.g.isLt
  have hb := c.b.isLt
  have e : packColor c = (q5 c.r ++ q6 c.g ++ q5 c.b : Half) := by
    apply BitVec.eq_of_getLsbD_eq
    intro i hi
    unfold packColor
    have h : (q5 c.r ++ q6 c.g ++ q5 c.b : Half).getLsbD i =
        if i < 5 then (q5 c.b).getLsbD i else if i - 5 < 6 then (q6 c.g).getLsbD (i - 5) else (q5 c.r).getLsbD (i - 5 - 6) := by
      refine (BitVec.getLsbD_append (x := q5 c.r ++ q6 c.g) (y := q5 c.b)).trans ?_
      rw [BitVec.getLsbD_append]
    rw [h]
    simp only [BitVec.getLsbD_or, BitVec.getLsbD_shiftLeft, BitVec.getLsbD_setWidth, hi, decide_true, Bool.true_and]
    by_cases h5 : i < 5
    · have h11 : i < 11 := by omega
      simp [h5, h11]
    · by_cases h11 : i < 11
      · have : i - 5 < 6 := by omega
        have h6 : i - 5 < 16 := by omega
        have hz : (q5 c.b).getLsbD i = false := BitVec.getLsbD_of_ge _ _ (by omega)
        simp [h5, h11, this, h6, hz]
      · have : ¬ i - 5 < 6 := by omega
        have hz : (q5 c.b).getLsbD i = false := BitVec.getLsbD_of_ge _ _ (by omega)
        have hy : (q6 c.g).getLsbD (i - 5) = false := BitVec.getLsbD_of_ge _ _ (by omega)
        have hs : i - 11 = i - 5 - 6 := by omega
        have hl : i - 5 - 6 < 16 := by omega
        simp [h5, h11, this, hz, hy, hs, hl]
  have h1 := toNat_cat (q5 c.r ++ q6 c.g) (q5 c.b)
  have h2 := toNat_cat (q5 c.r) (q6 c.g)
  have e5r : (q5 c.r).toNat = c.r.toNat / 8 := by
    simp only [q5, BitVec.toNat_setWidth, BitVec.toNat_ushiftRight, Nat.shiftRight_eq_div_pow]; omega
  have e5b : (q5 c.b).toNat = c.b.toNat / 8 := by
    simp only [q5, BitVec.toNat_setWidth, BitVec.toNat_ushiftRight, Nat.shiftRight_eq_div_pow]; omega
  have e6g : (q6 c.g).toNat = c.g.toNat / 4 := by
    simp only [q6, BitVec.toNat_setWidth, BitVec.toNat_ushiftRight, Nat.shiftRight_eq_div_pow]; omega
  rw [e]
  refine h1.trans ?_
  rw [h2, e5r, e5b, e6g]
  omega

/-- A 5-bit field expanded (40_codec R108). -/
theorem e5_toNat (v : BitVec 5) : (e5 v).toNat = 8 * v.toNat + v.toNat / 4 := by
  revert v; decide

/-- A 6-bit field expanded (40_codec R108). -/
theorem e6_toNat (v : BitVec 6) : (e6 v).toNat = 4 * v.toNat + v.toNat / 16 := by
  revert v; decide

/-- The low-light scaler is division by 8 (40_codec R110). -/
theorem ll_toNat (c : Byte) : (ll c).toNat = c.toNat / 8 := by
  simp [ll, BitVec.toNat_ushiftRight, Nat.shiftRight_eq_div_pow]

end Sys2Proof.Machine
end

