-- ==== Sys2Proof/Laws/Ops.lean ====
section
/-!
SUPPORT. What each shared operation can do, said once: completing a command, waiting, the gate, checked entries, the pixel pipeline's
writes, MRESULT, and the ends of a scroll call. Proofs cite these and do not unfold the operations.
-/

namespace Sys2Proof.Machine

/-! ### Completing and waiting -/

theorem opField_encode (i : Instr) : opField (encode i) = i.opcode := by cases i <;> rfl

theorem latchedOp_of_latched (i : Instr) (s : State) (h : Latched i s) : s.latchedOp = i.opcode := by
  unfold State.latchedOp
  rw [h]
  exact opField_encode i

/-- The ERR word of a report is its fields' value (10_state R27). -/
theorem errWord_eq_errValue (op : Byte) (r : Report) :
    errWord op r = errValue r.index.toNat op.toNat r.cause.toNat r.code.bits.toNat := by
  apply BitVec.eq_of_toNat_eq
  rw [errWord_toNat]
  unfold errValue
  have := r.index.isLt
  have := op.isLt
  have := r.cause.isLt
  have := r.code.bits.isLt
  simp only [BitVec.toNat_ofNat]
  omega

/-- Completing a command changes ERR, PIPE and PENDING.valid and nothing else. -/
theorem State.complete_eq_ended (s : State) (r : Report) :
    s.complete r = Ended s (errValue r.index.toNat s.latchedOp.toNat r.cause.toNat r.code.bits.toNat) := by
  rw [← errWord_eq_errValue]
  rfl

/-- A command that ends at once with a report, its ERR as numbers. -/
theorem State.finishWith_eq (i : Instr) (s : State) (r : Report) (h : Latched i s) :
    s.finishWith r = .next (Ended s (errValue r.index.toNat i.opcode.toNat r.cause.toNat r.code.bits.toNat)) := by
  rw [← latchedOp_of_latched i s h, ← State.complete_eq_ended]
  rfl

theorem State.await_eq_waiting (r : DevRequest) (s : State) : s.await r = Waiting s r := rfl

/-- An FB update and the flush that it makes due. -/
theorem State.flush_putPixels (ps : List (Nat × Half)) (s : State) : (s.putPixels ps).flush = Flushing s (s.mem.setPixels ps) := rfl

theorem State.flush_putColors (ws : List (Pos × Rgb)) (s : State) :
    (s.putColors ws).flush = Flushing s (s.mem.setPixels (s.transform ws)) := rfl

/-- What a requested flush carries: the 128 bytes of the framebuffer as they stand. -/
theorem State.requestFlush_eq_requested (s : State) : s.requestFlush = Requested s := rfl

theorem next_eq_deliver (e : Event) (s : State) : Next e s = State.deliver e s := rfl

/-! ### The gate -/

theorem gated_ready (s : State) (o : Out) (h : s.lifecycle = .ready) : gated s o = o := by
  unfold gated
  rw [h]

/-- Outside READY the gate ends the command with StateError. -/
theorem gated_not_ready (s : State) (o : Out) (h : s.lifecycle ≠ .ready) :
    gated s o = s.finishWith (.stateError s.lifecycle) := by
  unfold gated
  split <;> simp_all

/-! ### Checked entries -/

/-- When every entry is good, all of them are collected in order. -/
theorem checkEntries_of_ok {α : Type} (entry : Nat → Except ValidationCause α) (f : Nat → α) (l : List Nat)
    (h : ∀ j ∈ l, entry j = .ok (f j)) : checkEntries entry l = .ok (l.map f) := by
  induction l with
  | nil => rfl
  | cons j js ih =>
    unfold checkEntries
    rw [h j (by simp), ih (fun k hk => h k (by simp [hk]))]
    rfl

/-- The first bad entry, in list order, is the one reported. -/
theorem checkEntries_of_error {α : Type} (entry : Nat → Except ValidationCause α) (ks : List Nat) (j : Nat) (js : List Nat)
    (c : ValidationCause) (h : ∀ k ∈ ks, ∃ a, entry k = .ok a) (hj : entry j = .error c) :
    checkEntries entry (ks ++ j :: js) = .error (.validation c (BitVec.ofNat 8 j)) := by
  induction ks with
  | nil =>
    rw [List.nil_append]
    unfold checkEntries
    rw [hj]
  | cons k ks ih =>
    obtain ⟨a, ha⟩ := h k (by simp)
    rw [List.cons_append]
    unfold checkEntries
    rw [ha, ih (fun i hi => h i (by simp [hi]))]

theorem range_eq_append (n j : Nat) (h : j < n) :
    List.range n = List.range j ++ j :: (List.range (n - j - 1)).map (fun k => j + (k + 1)) := by
  apply List.ext_getElem
  · simp; omega
  · intro i h1 h2
    rw [List.getElem_append]
    split
    · simp
    · rename_i hi
      simp only [List.length_range] at hi
      rcases Nat.exists_eq_add_of_le (Nat.le_of_not_lt hi) with ⟨d, rfl⟩
      cases d with
      | zero => simp
      | succ d => simp

/-- The first bad entry of the first `n` is the one reported. -/
theorem checkEntries_range_of_error {α : Type} (entry : Nat → Except ValidationCause α) (n j : Nat) (c : ValidationCause)
    (hn : j < n) (h : ∀ k < j, ∃ a, entry k = .ok a) (hj : entry j = .error c) :
    checkEntries entry (List.range n) = .error (.validation c (BitVec.ofNat 8 j)) := by
  rw [range_eq_append n j hn]
  exact checkEntries_of_error entry _ j _ c (fun k hk => h k (List.mem_range.mp hk)) hj

/-- An error of the check is a validation error of some entry. -/
theorem checkEntries_error {α : Type} (entry : Nat → Except ValidationCause α) (l : List Nat) (r : Report)
    (h : checkEntries entry l = .error r) : ∃ j ∈ l, ∃ c, r = .validation c (BitVec.ofNat 8 j) := by
  induction l with
  | nil => cases h
  | cons j js ih =>
    unfold checkEntries at h
    split at h
    · rename_i c _
      cases h
      exact ⟨j, by simp, c, rfl⟩
    · split at h
      · rename_i hr
        cases h
        obtain ⟨k, hk, c, hc⟩ := ih hr
        exact ⟨k, by simp [hk], c, hc⟩
      · cases h

/-! ### The pixel pipeline's writes -/

theorem physIndex_lt (k : BitVec 2) (p : Pos) : physIndex k p < 64 := by
  unfold physIndex pixelIndex
  have := (rotate k p).x.isLt
  have := (rotate k p).y.isLt
  omega

theorem rotate_injective (k : BitVec 2) (p q : Pos) (h : rotate k p = rotate k q) : p = q := by
  obtain ⟨px, py⟩ := p
  obtain ⟨qx, qy⟩ := q
  unfold rotate at h
  split at h <;> simp only [Pos.mk.injEq, Fin.ext_iff, Fin.sub_def] at h ⊢ <;> omega

theorem physIndex_injective (k : BitVec 2) (p q : Pos) (h : physIndex k p = physIndex k q) : p = q := by
  apply rotate_injective k
  unfold physIndex pixelIndex at h
  have := (rotate k p).x.isLt
  have := (rotate k q).x.isLt
  generalize rotate k p = u at *
  generalize rotate k q = v at *
  obtain ⟨ux, uy⟩ := u
  obtain ⟨vx, vy⟩ := v
  simp only [Pos.mk.injEq, Fin.ext_iff] at *
  omega

/-- Entry 8 y + x of a grid stands for the logical position (x, y) (10_state R38, R39). -/
theorem posOfEntry_mul_add (p : Pos) : posOfEntry (8 * p.y.val + p.x.val) = p := by
  obtain ⟨x, y⟩ := p
  simp only [posOfEntry, Pos.mk.injEq, Fin.ext_iff, Fin.ofNat]
  omega

theorem posOfEntry_entry (e : Nat) (h : e < 64) : 8 * (posOfEntry e).y.val + (posOfEntry e).x.val = e := by
  simp only [posOfEntry, Fin.ofNat]
  omega

/-- Pixel words of indices below 64 change no byte outside the framebuffer. -/
theorem sameOutside_setPixels (m : Memory) (ps : List (Nat × Half)) (h : ∀ p ∈ ps, p.1 < 64) :
    SameOutsideFramebuffer m (m.setPixels ps) := by
  intro a ha
  apply Memory.readByte_setPixels_other
  intro p hp
  have := h p hp
  unfold framebufferOffset at ha
  unfold fbBase
  omega

theorem transform_index_lt (s : State) (ws : List (Pos × Rgb)) : ∀ p ∈ s.transform ws, p.1 < 64 := by
  intro p hp
  obtain ⟨w, -, rfl⟩ := List.mem_map.mp hp
  exact physIndex_lt _ _

/-- Pixel words written for a list of indices: one in the list holds its own word, when the list has each index once. -/
theorem Memory.pixel_setPixels_map {α : Type} (m : Memory) (l : List α) (f : α → Nat) (g : α → Half) (a : α) (ha : a ∈ l)
    (h : ∀ b ∈ l, f b = f a → g b = g a) : (m.setPixels (l.map (fun b => (f b, g b)))).pixel (f a) = g a := by
  induction l using List.reverseRecOn generalizing m with
  | nil => cases ha
  | append_singleton l b ih =>
    have e : m.setPixels ((l ++ [b]).map (fun b => (f b, g b))) =
        (m.setPixels (l.map (fun b => (f b, g b)))).setPixel (f b) (g b) := by
      simp [Memory.setPixels, List.foldl_append]
    rw [e, Memory.pixel_setPixel]
    split
    · rename_i hb
      exact h b (by simp) hb.symm
    · rename_i hb
      refine ih m ?_ (fun c hc => h c (by simp [hc]))
      rcases List.mem_append.mp ha with h' | h'
      · exact h'
      · simp only [List.mem_singleton] at h'
        exact absurd (by rw [h']) hb

/-- Filling: every one of the 64 words is the given one. -/
theorem Memory.pixel_fill (m : Memory) (p : Half) (i : Nat) (h : i < 64) :
    (m.setPixels ((List.range Config.pixelCount).map (fun i => (i, p)))).pixel i = p :=
  Memory.pixel_setPixels_map m _ (fun i => i) (fun _ => p) i (List.mem_range.mpr h) (fun _ _ _ => rfl)

theorem sameOutside_fill (m : Memory) (p : Half) :
    SameOutsideFramebuffer m (m.setPixels ((List.range Config.pixelCount).map (fun i => (i, p)))) := by
  apply sameOutside_setPixels
  intro q hq
  obtain ⟨i, hi, rfl⟩ := List.mem_map.mp hq
  exact List.mem_range.mp hi

/-- The memory a fill leaves, its flush due. -/
theorem State.flush_fillPixels (p : Half) (s : State) :
    (s.fillPixels p).flush = Flushing s (s.mem.setPixels ((List.range Config.pixelCount).map (fun i => (i, p)))) := by
  unfold State.fillPixels
  rw [State.flush_putPixels]

/-- The memory a grid write leaves (42_display_pixels R137, R144). -/
theorem State.putGrid_eq (g : Pos → Rgb) (s : State) :
    s.putGrid g =
      s.putPixels (allPositions.map (fun p => (physIndex s.rot p, writeTransform (g p) s.lowlight))) := by
  unfold State.putGrid State.putColors State.transform
  rw [List.map_map]
  rfl

/-- A grid write and its flush. -/
theorem State.flush_putGrid (g : Pos → Rgb) (s : State) :
    (s.putGrid g).flush =
      Flushing s (s.mem.setPixels (allPositions.map (fun p => (physIndex s.rot p, writeTransform (g p) s.lowlight)))) := by
  rw [State.putGrid_eq, State.flush_putPixels]

theorem mem_allPositions (p : Pos) : p ∈ allPositions := by
  refine List.mem_map.mpr ⟨8 * p.y.val + p.x.val, List.mem_range.mpr ?_, posOfEntry_mul_add p⟩
  have := p.x.isLt
  have := p.y.isLt
  unfold Config.pixelCount
  omega

/-- A grid write leaves at the rotated index of each position the transform of its color. -/
theorem Memory.pixel_grid (m : Memory) (k : BitVec 2) (low : Bool) (g : Pos → Rgb) (p : Pos) :
    (m.setPixels (allPositions.map (fun p => (physIndex k p, writeTransform (g p) low)))).pixel (physIndex k p) =
      writeTransform (g p) low :=
  Memory.pixel_setPixels_map m allPositions (fun p => physIndex k p) (fun p => writeTransform (g p) low) p (mem_allPositions p)
    (fun q _ hq => by rw [physIndex_injective k q p hq])

theorem sameOutside_grid (m : Memory) (k : BitVec 2) (f : Pos → Half) :
    SameOutsideFramebuffer m (m.setPixels (allPositions.map (fun p => (physIndex k p, f p)))) := by
  apply sameOutside_setPixels
  intro q hq
  obtain ⟨p, -, rfl⟩ := List.mem_map.mp hq
  exact physIndex_lt _ _

/-- Two writes of words agree where the memories agree. -/
theorem readHalf_congr (m m' : Memory) (a : Nat) (h : m.readByte a = m'.readByte a) (h' : m.readByte (a + 1) = m'.readByte (a + 1)) :
    m.readHalf a = m'.readHalf a := by
  unfold Memory.readHalf
  rw [h, h']

/-! ### MRESULT -/

/-- Words stored one after the other at a base: word `e` is its own value. -/
theorem readWord_foldl_writeWord (m : Memory) (base : Nat) (v : Nat → Word) (n e : Nat) (h : e < n) :
    ((List.range n).foldl (fun m e => m.writeWord (base + 4 * e) (v e)) m).readWord (base + 4 * e) = v e := by
  induction n with
  | zero => omega
  | succ n ih =>
    rw [List.range_succ, List.foldl_append]
    simp only [List.foldl_cons, List.foldl_nil]
    by_cases he : e = n
    · subst he
      exact Memory.readWord_writeWord_same _ _ _
    · rw [Memory.readWord_writeWord_other _ _ _ _ (by omega)]
      exact ih (by omega)

/-- Every byte outside the words stored is as before. -/
theorem readByte_foldl_writeWord (m : Memory) (base : Nat) (v : Nat → Word) (n a : Nat) (h : a < base ∨ base + 4 * n ≤ a) :
    ((List.range n).foldl (fun m e => m.writeWord (base + 4 * e) (v e)) m).readByte a = m.readByte a := by
  induction n with
  | zero => rfl
  | succ n ih =>
    rw [List.range_succ, List.foldl_append]
    simp only [List.foldl_cons, List.foldl_nil]
    rw [Memory.readByte_writeWord_other _ _ _ _ (by omega)]
    exact ih (by omega)

theorem wf_foldl_writeWord (m : Memory) (base : Nat) (v : Nat → Word) (n : Nat) (h : m.wf) :
    ((List.range n).foldl (fun m e => m.writeWord (base + 4 * e) (v e)) m).wf := by
  induction n with
  | zero => exact h
  | succ n ih =>
    rw [List.range_succ, List.foldl_append]
    exact Memory.wf_writeWord _ _ _ ih

theorem mem_foldl_writeWord (m : Memory) (base : Nat) (v : Nat → Word) (n : Nat) (c : Host.Cell)
    (h : c ∈ (List.range n).foldl (fun m e => m.writeWord (base + 4 * e) (v e)) m) :
    (base ≤ c.1 ∧ c.1 < base + 4 * n) ∨ c ∈ m := by
  induction n with
  | zero => exact .inr h
  | succ n ih =>
    rw [List.range_succ, List.foldl_append] at h
    rcases Memory.mem_writeWord _ _ _ _ h with h | h
    · exact .inl ⟨by omega, by omega⟩
    · rcases ih h with h | h
      · exact .inl ⟨by omega, by omega⟩
      · exact .inr h

theorem State.storeMatrix_eq (s : State) : s.storeMatrix = { s with mem := s.storeMatrix.mem } := rfl

/-- MRESULT word e is the color of the pixel it stands for (42_display_pixels R145). -/
theorem State.readWord_storeMatrix (s : State) (e : Nat) (h : e < 64) :
    s.storeMatrix.mem.readWord (0x400 + 4 * e) = rgbWord (s.getPixel (posOfEntry e)) := by
  unfold State.storeMatrix
  exact readWord_foldl_writeWord s.mem mresultBase (fun e => rgbWord (s.getPixel (posOfEntry e))) Config.pixelCount e h

/-- Storing MRESULT changes no other byte. -/
theorem State.readByte_storeMatrix (s : State) (a : Nat) (h : a < 0x400 ∨ 0x500 ≤ a) :
    s.storeMatrix.mem.readByte a = s.mem.readByte a := by
  unfold State.storeMatrix
  exact readByte_foldl_writeWord s.mem mresultBase (fun e => rgbWord (s.getPixel (posOfEntry e))) Config.pixelCount a h

theorem State.wf_storeMatrix (s : State) (h : s.mem.wf) : s.storeMatrix.mem.wf := by
  unfold State.storeMatrix
  exact wf_foldl_writeWord s.mem mresultBase (fun e => rgbWord (s.getPixel (posOfEntry e))) Config.pixelCount h

theorem State.mem_storeMatrix (s : State) (c : Host.Cell) (h : c ∈ s.storeMatrix.mem) :
    (0x400 ≤ c.1 ∧ c.1 < 0x500) ∨ c ∈ s.mem := by
  unfold State.storeMatrix at h
  exact mem_foldl_writeWord s.mem mresultBase (fun e => rgbWord (s.getPixel (posOfEntry e))) Config.pixelCount c h

/-! ### The ends of a scroll call -/

theorem State.abandon_eq (b : Bool) (tag : Byte) (s : State) :
    s.abandon b tag = { s with done := if b then Posted s tag 5 0 else s.done } := by
  cases b <;> rfl

theorem State.endRequest_eq (code : ErrCode) (cause : Byte) (s : State) :
    s.endRequest code cause =
      { s with done := Posted s s.sq.req.tag code.bits cause, sq := { s.sq with reqValid := false, phase := .idle }, pipe := .free } :=
  rfl

theorem State.endRunning_eq (code : ErrCode) (cause : Byte) (s : State) :
    s.endRunning code cause =
      { s with done := Posted s s.sq.cur.tag code.bits cause, sq := { s.sq with phase := .idle }, pipe := .free } :=
  rfl

theorem State.endFinish_eq (code : ErrCode) (cause : Byte) (s : State) :
    s.endFinish code cause =
      { s with
        done := Posted s s.sq.cur.tag code.bits cause
        sq := { s.sq with phase := if s.sq.reqValid then .start else .idle }
        pipe := .free } :=
  rfl

/-- A clear of SEQ leaves its flush due. -/
theorem State.seqFlush_fillPixels (kind : SeqKind) (p : Half) (s : State) :
    (s.fillPixels p).seqFlush kind =
      SeqFlushing kind s (s.mem.setPixels ((List.range Config.pixelCount).map (fun i => (i, p)))) := by
  unfold State.fillPixels
  rfl

/-- A SEQ operation that writes the framebuffer leaves its flush due. -/
theorem State.seqFlush_putPixels (kind : SeqKind) (ps : List (Nat × Half)) (s : State) :
    (s.putPixels ps).seqFlush kind = SeqFlushing kind s (s.mem.setPixels ps) := rfl

/-- A frame of SEQ leaves its flush due. -/
theorem State.seqFlush_putGrid (kind : SeqKind) (g : Pos → Rgb) (s : State) :
    (s.putGrid g).seqFlush kind =
      SeqFlushing kind s (s.mem.setPixels (allPositions.map (fun p => (physIndex s.rot p, writeTransform (g p) s.lowlight)))) := by
  rw [State.putGrid_eq, State.seqFlush_putPixels]

end Sys2Proof.Machine
end

