-- ==== Sys2Proof/Laws/Exec.lean ====
section
/-!
SUPPORT. What a command can do, said once: `exec` always answers a next state, and that state has one of the shapes listed in
`exec_cases`. Proofs over all commands cite this and unfold no meaning.
-/

namespace Sys2Proof.Machine

/-- The words a command that ends with success may have written besides ERR. -/
inductive Ending (i : Instr) (s : State) : State → Prop where
  | unchanged : i = .nop ∨ (i = .close ∧ s.lifecycle = .closed) → Ending i s s
  | rgb (c : Rgb) : i = .unpack ∨ i = .hex2rgb ∨ (i = .getpix ∧ s.lifecycle = .ready) → Ending i s { s with resultRgb := rgbWord c }
  | packed (p : Half) : i = .pack → Ending i s { s with result565 := p.setWidth 32 }
  | hex (a b c d e f g : Byte) :
      i = .rgb2hex → Ending i s { s with hexout0 := wordOfBytes a b c d, hexout1 := wordOfBytes e f g 0 }
  | rotation (k : BitVec 2) : i = .setrot → s.lifecycle = .ready → Ending i s { s with rot := k }
  | lowlight (b : Bool) : i = .setlowlight → s.lifecycle = .ready → Ending i s { s with lowlight := b }
  | matrix : i = .getmatrix → s.lifecycle = .ready → Ending i s s.storeMatrix
  | message (len : Nat) (tc bc : Rgb) :
      i = .showmsg → len ≤ 256 → Ending i s (s.acceptMessage Config.cancelReports len tc bc)

/-- The shapes in which a command leaves the machine: an error that changes ERR alone, a success, FB writes with their flush due, or a wait
for DevOpen or DevClose. -/
inductive ExecResult (i : Instr) (s : State) : State → Prop where
  | error (r : Report) : r.code = .validation ∨ r.code = .state → ExecResult i s (s.complete r)
  | success (u : State) : Ending i s u → ExecResult i s (u.complete .success)
  | flush (ps : List (Nat × Half)) :
      s.lifecycle = .ready → (∀ p ∈ ps, p.1 < 64) → i ∈ [.setpix, .setpixs, .fill, .clear, .setmatrix, .fliph, .flipv] →
      ExecResult i s (s.putPixels ps).flush
  | opening : i = .init → s.lifecycle = .uninit → ExecResult i s (s.await .openDev)
  | closing : i = .close → s.lifecycle = .ready → ExecResult i s (s.await .closeDev)

theorem finishWith_validation (i : Instr) (s : State) (c : ValidationCause) (k : Byte) :
    ∃ t, s.finishWith (.validation c k) = .next t ∧ ExecResult i s t := ⟨_, rfl, .error _ (.inl rfl)⟩

theorem finishWith_state (i : Instr) (s : State) (l : Lifecycle) :
    ∃ t, s.finishWith (.stateError l) = .next t ∧ ExecResult i s t := ⟨_, rfl, .error _ (.inr rfl)⟩

theorem finishWith_success (i : Instr) (s u : State) (h : Ending i s u) :
    ∃ t, u.finishWith .success = .next t ∧ ExecResult i s t := ⟨_, rfl, .success _ h⟩

theorem finishWith_checkEntries {α : Type} (i : Instr) (s : State) (entry : Nat → Except ValidationCause α) (l : List Nat) (r : Report)
    (h : checkEntries entry l = .error r) : ∃ t, s.finishWith r = .next t ∧ ExecResult i s t := by
  obtain ⟨j, -, c, rfl⟩ := checkEntries_error entry l r h
  exact finishWith_validation i s c _

/-- A gated command has a shape if its body has one in READY. -/
theorem gated_cases (i : Instr) (s : State) (o : Out) (h : s.lifecycle = .ready → ∃ t, o = .next t ∧ ExecResult i s t) :
    ∃ t, gated s o = .next t ∧ ExecResult i s t := by
  by_cases hl : s.lifecycle = .ready
  · rw [gated_ready s o hl]
    exact h hl
  · rw [gated_not_ready s o hl]
    exact finishWith_state i s _

theorem fill_index_lt (p : Half) : ∀ q ∈ (List.range Config.pixelCount).map (fun i => (i, p)), q.1 < 64 := by
  intro q hq
  obtain ⟨i, hi, rfl⟩ := List.mem_map.mp hq
  exact List.mem_range.mp hi

/-- Every command answers a next state, of one of the shapes. -/
theorem exec_cases (i : Instr) (s : State) : ∃ t, exec i s = .next t ∧ ExecResult i s t := by
  cases i with
  | nop => exact finishWith_success _ s s (.unchanged (.inl rfl))
  | init =>
    show ∃ t, execInit s = _ ∧ _
    unfold execInit
    split
    · rename_i h
      exact ⟨_, rfl, .opening rfl h⟩
    · exact finishWith_state _ s _
    · exact finishWith_state _ s _
  | close =>
    show ∃ t, execClose s = _ ∧ _
    unfold execClose
    split
    · rename_i h
      exact finishWith_success _ s s (.unchanged (.inr ⟨rfl, h⟩))
    · exact finishWith_state _ s _
    · rename_i h
      exact ⟨_, rfl, .closing rfl h⟩
  | setrot =>
    refine gated_cases _ s _ fun hl => ?_
    split
    · exact finishWith_validation _ s _ _
    · exact finishWith_success _ s _ (.rotation _ rfl hl)
  | setlowlight => exact gated_cases _ s _ fun hl => finishWith_success _ s _ (.lowlight _ rfl hl)
  | setpix =>
    refine gated_cases _ s _ fun hl => ?_
    split
    · exact finishWith_validation _ s _ _
    · split
      · exact finishWith_validation _ s _ _
      · exact ⟨_, rfl, .flush _ hl (transform_index_lt _ _) (by simp)⟩
  | getpix =>
    refine gated_cases _ s _ fun hl => ?_
    split
    · exact finishWith_validation _ s _ _
    · exact finishWith_success _ s _ (.rgb _ (.inr (.inr ⟨rfl, hl⟩)))
  | setpixs =>
    refine gated_cases _ s _ fun hl => ?_
    dsimp only
    split
    · exact finishWith_validation _ s _ _
    · split
      · rename_i h
        exact finishWith_checkEntries _ s _ _ _ h
      · exact ⟨_, rfl, .flush _ hl (transform_index_lt _ _) (by simp)⟩
  | fill =>
    refine gated_cases _ s _ fun hl => ?_
    split
    · exact finishWith_validation _ s _ _
    · exact ⟨_, rfl, .flush _ hl (fill_index_lt _) (by simp)⟩
  | clear => exact gated_cases _ s _ fun hl => ⟨_, rfl, .flush _ hl (fill_index_lt _) (by simp)⟩
  | setmatrix =>
    refine gated_cases _ s _ fun hl => ?_
    split
    · split
      · rename_i h
        exact finishWith_checkEntries _ s _ _ _ h
      · exact ⟨_, rfl, .flush _ hl (transform_index_lt _ _) (by simp)⟩
    · exact finishWith_validation _ s _ _
  | getmatrix => exact gated_cases _ s _ fun hl => finishWith_success _ s _ (.matrix rfl hl)
  | fliph => exact gated_cases _ s _ fun hl => ⟨_, rfl, .flush _ hl (transform_index_lt _ _) (by simp)⟩
  | flipv => exact gated_cases _ s _ fun hl => ⟨_, rfl, .flush _ hl (transform_index_lt _ _) (by simp)⟩
  | pack =>
    show ∃ t, execPack s = _ ∧ _
    unfold execPack
    split
    · exact finishWith_validation _ s _ _
    · exact finishWith_success _ s _ (.packed _ rfl)
  | unpack => exact finishWith_success _ s _ (.rgb _ (.inl rfl))
  | hex2rgb =>
    show ∃ t, execHex2rgb s = _ ∧ _
    unfold execHex2rgb
    split
    · exact finishWith_validation _ s _ _
    · exact finishWith_success _ s _ (.rgb _ (.inr (.inl rfl)))
  | rgb2hex =>
    show ∃ t, execRgb2hex s = _ ∧ _
    unfold execRgb2hex
    split
    · exact finishWith_validation _ s _ _
    · exact finishWith_success _ s _ (.hex _ _ _ _ _ _ _ rfl)
  | showmsg =>
    show ∃ t, execShowmsg s = _ ∧ _
    unfold execShowmsg
    dsimp only
    split
    · exact finishWith_validation _ s _ _
    · rename_i hl
      split
      · exact finishWith_validation _ s _ _
      · split
        · exact finishWith_validation _ s _ _
        · exact finishWith_success _ s _ (.message _ _ _ rfl (Nat.le_of_not_lt hl))

/-- The shape of the next state of a command. -/
theorem execResult_of_exec (i : Instr) (s t : State) (h : exec i s = .next t) : ExecResult i s t := by
  obtain ⟨u, hu, hr⟩ := exec_cases i s
  rw [h] at hu
  injection hu with hu
  exact hu ▸ hr

/-- offer writes SCROLL_DONE and the sequencer record only. -/
theorem State.offer_frame (cr : Bool) (r : ScrollCall) (s : State) : ∃ d q, s.offer cr r = { s with done := d, sq := q } := by
  unfold State.offer
  split <;> simp only [State.abandon_eq]
  · exact ⟨_, _, rfl⟩
  · exact ⟨_, _, rfl⟩
  · exact ⟨_, _, rfl⟩
  · exact ⟨_, _, rfl⟩
  · split
    · exact ⟨_, _, rfl⟩
    · exact ⟨_, _, rfl⟩

/-- An accepted message writes SCROLL_DONE and the sequencer record only. -/
theorem State.acceptMessage_frame (cr : Bool) (len : Nat) (tc bc : Rgb) (s : State) :
    ∃ d q, s.acceptMessage cr len tc bc = { s with done := d, sq := q } := by
  unfold State.acceptMessage
  dsimp only
  split
  · exact ⟨_, _, rfl⟩
  · obtain ⟨d, q, h⟩ := State.offer_frame cr
      { text := filterText (textBytes s.mem len), n := BitVec.ofNat 9 (filterText (textBytes s.mem len)).length, tcolor := tc,
        bcolor := bc, interval := scrollInterval s.regs.speed, tag := s.sq.nextTag }
      { s with sq := { s.sq with lastTag := s.sq.nextTag } }
    exact ⟨d, q, h⟩

end Sys2Proof.Machine
end

