-- ==== Sys2Proof/Laws/Operands.lean ====
section
/-!
SUPPORT. What the operand readers answer, in the terms of the claims: a color or position operand is read exactly when it holds one
(30_encoding R96, R97), and the readers of the other fields as arithmetic on the register's value.
-/

namespace Sys2Proof.Machine

/-! ### Fields as numbers -/

/-- A signed 16-bit channel field is in [0, 255] exactly when its upper byte is 0, and is then its value. -/
theorem channel_iff (f : Half) : channelValid f.toInt = true ↔ f.toNat < 256 := by
  have := f.isLt
  simp only [channelValid, Bool.and_eq_true, decide_eq_true_eq, BitVec.toInt_eq_toNat_cond]
  split <;> omega

theorem channel_toInt (f : Half) (h : f.toNat < 256) : f.toInt = (f.toNat : Int) := by
  simp only [BitVec.toInt_eq_toNat_cond]
  split <;> omega

/-- A signed 8-bit coordinate field is in [0, 7] exactly when its value is below 8, and is then its value. -/
theorem coord_iff (f : Byte) : coordValid f.toInt = true ↔ f.toNat < 8 := by
  have := f.isLt
  simp only [coordValid, Bool.and_eq_true, decide_eq_true_eq, BitVec.toInt_eq_toNat_cond]
  split <;> omega

theorem coord_toInt (f : Byte) (h : f.toNat < 8) : f.toInt = (f.toNat : Int) := by
  simp only [BitVec.toInt_eq_toNat_cond]
  split <;> omega

theorem ofInt_natCast (w n : Nat) : BitVec.ofInt w (n : Int) = BitVec.ofNat w n := by simp

/-! ### Colors -/

theorem colorOperand_valid_iff (rg b : Word) :
    (colorOperand rg b).valid = true ↔
      (rg.extractLsb' 0 16).toNat < 256 ∧ (rg.extractLsb' 16 16).toNat < 256 ∧ (b.extractLsb' 0 16).toNat < 256 := by
  simp only [ColorOperand.valid, colorOperand, Bool.and_eq_true, channel_iff, and_assoc]

/-- The reader of a color operand, by the sizes of its fields. -/
theorem readColor_eq (rg b : Word) :
    readColor rg b =
      if (rg.extractLsb' 0 16).toNat < 256 ∧ (rg.extractLsb' 16 16).toNat < 256 ∧ (b.extractLsb' 0 16).toNat < 256 then
        some ⟨BitVec.ofNat 8 (rg.extractLsb' 0 16).toNat, BitVec.ofNat 8 (rg.extractLsb' 16 16).toNat,
          BitVec.ofNat 8 (b.extractLsb' 0 16).toNat⟩
      else none := by
  show (if (colorOperand rg b).valid = true then some (colorOperand rg b).narrow else none) = _
  by_cases h : (colorOperand rg b).valid = true
  · have h' := (colorOperand_valid_iff rg b).mp h
    rw [if_pos h, if_pos h']
    simp only [ColorOperand.narrow, colorOperand, channel_toInt _ h'.1, channel_toInt _ h'.2.1, channel_toInt _ h'.2.2,
      ofInt_natCast]
  · rw [if_neg h, if_neg (mt (colorOperand_valid_iff rg b).mpr h)]

theorem badColor_iff (rg b : Word) :
    BadColor rg b ↔
      ¬ ((rg.extractLsb' 0 16).toNat < 256 ∧ (rg.extractLsb' 16 16).toNat < 256 ∧ (b.extractLsb' 0 16).toNat < 256) := by
  unfold BadColor
  have e1 := field_toNat rg 8 8
  have e2 := field_toNat rg 24 8
  have e3 := field_toNat b 8 8
  have f1 := field_toNat rg 0 16
  have f2 := field_toNat rg 16 16
  have f3 := field_toNat b 0 16
  have z : (0 : Byte).toNat = 0 := rfl
  simp only [ne_eq, ← BitVec.toNat_inj, z, e1, e2, e3, f1, f2, f3]
  have := rg.isLt
  have := b.isLt
  omega

/-- An operand with a channel out of range is not read. -/
theorem readColor_of_bad (rg b : Word) (h : BadColor rg b) : readColor rg b = none := by
  rw [readColor_eq, if_neg ((badColor_iff rg b).mp h)]

theorem holdsColor_fields (rg b : Word) (c : Rgb) (h : HoldsColor rg b c) :
    (rg.extractLsb' 0 16).toNat = c.r.toNat ∧ (rg.extractLsb' 16 16).toNat = c.g.toNat ∧
      (b.extractLsb' 0 16).toNat = c.b.toNat := by
  obtain ⟨h1, h2⟩ := h
  have hn : rg.toNat = c.g.toNat * 2 ^ 16 + c.r.toNat := by
    rw [h1]; refine (toNat_cat4 0 c.g 0 c.r).trans ?_; simp
  have hb : (b.extractLsb' 0 16).toNat = c.b.toNat := by
    rw [h2]; refine (toNat_cat2 0 c.b).trans ?_; simp
  have := c.r.isLt
  have := c.g.isLt
  refine ⟨?_, ?_, hb⟩
  · rw [field_toNat, hn]; omega
  · rw [field_toNat, hn]; omega

/-- An operand that holds a color is read as that color. -/
theorem readColor_of_holds (rg b : Word) (c : Rgb) (h : HoldsColor rg b c) : readColor rg b = some c := by
  obtain ⟨e1, e2, e3⟩ := holdsColor_fields rg b c h
  have := c.r.isLt
  have := c.g.isLt
  have := c.b.isLt
  rw [readColor_eq, e1, e2, e3, if_pos ⟨by omega, by omega, by omega⟩]
  simp

/-- An operand whose channels are all in range holds the color that is read from it. -/
theorem readColor_of_not_bad (rg b : Word) (h : ¬ BadColor rg b) : ∃ c, HoldsColor rg b c ∧ readColor rg b = some c := by
  have hv := not_not.mp (mt (badColor_iff rg b).mpr h)
  have f1 := field_toNat rg 0 16
  have f2 := field_toNat rg 16 16
  have f3 := field_toNat b 0 16
  have := rg.isLt
  have hc : HoldsColor rg b ⟨BitVec.ofNat 8 (rg.extractLsb' 0 16).toNat, BitVec.ofNat 8 (rg.extractLsb' 16 16).toNat,
      BitVec.ofNat 8 (b.extractLsb' 0 16).toNat⟩ := by
    constructor
    · apply BitVec.eq_of_toNat_eq
      refine Eq.trans ?_ (toNat_cat4 0 _ 0 _).symm
      simp only [BitVec.toNat_ofNat, f1, f2] at hv ⊢
      simp
      omega
    · apply BitVec.eq_of_toNat_eq
      refine Eq.trans ?_ (toNat_cat2 0 _).symm
      simp only [BitVec.toNat_ofNat] at hv ⊢
      simp
      omega
  exact ⟨_, hc, readColor_of_holds _ _ _ hc⟩

/-- An operand that holds a color is not out of range. -/
theorem not_badColor_of_holds (rg b : Word) (c : Rgb) (h : HoldsColor rg b c) : ¬ BadColor rg b := by
  intro hb
  have := readColor_of_bad rg b hb
  rw [readColor_of_holds rg b c h] at this
  cases this

/-! ### Positions -/

theorem badPos_iff (w : Word) : BadPos w ↔ ¬ ((w.extractLsb' 0 8).toNat < 8 ∧ (w.extractLsb' 8 8).toNat < 8) := by
  unfold BadPos
  have e1 := field_toNat w 3 5
  have e2 := field_toNat w 11 5
  have f1 := field_toNat w 0 8
  have f2 := field_toNat w 8 8
  have z : (0 : BitVec 5).toNat = 0 := rfl
  simp only [ne_eq, ← BitVec.toNat_inj, z, e1, e2, f1, f2]
  have := w.isLt
  omega

/-- The reader of a position operand, by the sizes of its fields. -/
theorem readPos_eq (w : Word) :
    readPos w =
      if (w.extractLsb' 0 8).toNat < 8 ∧ (w.extractLsb' 8 8).toNat < 8 then
        some ⟨Fin.ofNat 8 (w.extractLsb' 0 8).toNat, Fin.ofNat 8 (w.extractLsb' 8 8).toNat⟩
      else none := by
  unfold readPos posX posY
  by_cases h : (w.extractLsb' 0 8).toNat < 8 ∧ (w.extractLsb' 8 8).toNat < 8
  · rw [if_pos h, (coord_iff _).mpr h.1, (coord_iff _).mpr h.2, coord_toInt _ h.1, coord_toInt _ h.2, Int.toNat_natCast,
      Int.toNat_natCast]
    rfl
  · rw [if_neg h]
    have : ¬ (coordValid (w.extractLsb' 0 8).toInt && coordValid (w.extractLsb' 8 8).toInt) = true := by
      rw [Bool.and_eq_true, coord_iff, coord_iff]; exact h
    rw [if_neg this]

/-- A position out of range is not read. -/
theorem readPos_of_bad (w : Word) (h : BadPos w) : readPos w = none := by
  rw [readPos_eq, if_neg ((badPos_iff w).mp h)]

/-- An operand that holds a position is read as that position. -/
theorem readPos_of_holds (w : Word) (p : Pos) (h : HoldsPos w p) : readPos w = some p := by
  obtain ⟨h1, h2⟩ := h
  have hx := p.x.isLt
  have hy := p.y.isLt
  have e1 : (BitVec.ofNat 8 p.x.val).toNat = p.x.val := by simp; omega
  have e2 : (BitVec.ofNat 8 p.y.val).toNat = p.y.val := by simp; omega
  rw [readPos_eq, h1, h2, e1, e2, if_pos ⟨hx, hy⟩]
  simp [Fin.ofNat, Nat.mod_eq_of_lt hx, Nat.mod_eq_of_lt hy]

/-- An operand in range holds the position that is read from it. -/
theorem readPos_of_not_bad (w : Word) (h : ¬ BadPos w) : ∃ p, HoldsPos w p ∧ readPos w = some p := by
  have hv := not_not.mp (mt (badPos_iff w).mpr h)
  have hp : HoldsPos w ⟨Fin.ofNat 8 (w.extractLsb' 0 8).toNat, Fin.ofNat 8 (w.extractLsb' 8 8).toNat⟩ := by
    constructor <;> apply BitVec.eq_of_toNat_eq <;> simp only [Fin.ofNat, BitVec.toNat_ofNat] <;> omega
  exact ⟨_, hp, readPos_of_holds _ _ hp⟩

/-- An operand that holds a position is not out of range. -/
theorem not_badPos_of_holds (w : Word) (p : Pos) (h : HoldsPos w p) : ¬ BadPos w := by
  intro hb
  have := readPos_of_bad w hb
  rw [readPos_of_holds w p h] at this
  cases this

end Sys2Proof.Machine
end

