-- ==== Sys2Proof/Laws/PerInstr.lean ====
section
/-!
SUPPORT. Per-instruction laws about the instruction as syntax: its encoding is a well-formed word that decodes to it.
-/

namespace Sys2Proof.Laws.EncodeRoundTrip

/-- A command is well formed, its encoding is a well-formed word (30_encoding R87, R92, R94), and decodes to the command. -/
def Statement (i : Instr) : Prop := i.wellFormed = true ∧ wordWellFormed (encode i) = true ∧ decode (encode i) = .ok i

theorem nop : Statement .nop := ⟨rfl, rfl, rfl⟩

theorem init : Statement .init := ⟨rfl, rfl, rfl⟩

theorem close : Statement .close := ⟨rfl, rfl, rfl⟩

theorem setrot : Statement .setrot := ⟨rfl, rfl, rfl⟩

theorem setlowlight : Statement .setlowlight := ⟨rfl, rfl, rfl⟩

theorem setpix : Statement .setpix := ⟨rfl, rfl, rfl⟩

theorem getpix : Statement .getpix := ⟨rfl, rfl, rfl⟩

theorem setpixs : Statement .setpixs := ⟨rfl, rfl, rfl⟩

theorem fill : Statement .fill := ⟨rfl, rfl, rfl⟩

theorem clear : Statement .clear := ⟨rfl, rfl, rfl⟩

theorem setmatrix : Statement .setmatrix := ⟨rfl, rfl, rfl⟩

theorem getmatrix : Statement .getmatrix := ⟨rfl, rfl, rfl⟩

theorem fliph : Statement .fliph := ⟨rfl, rfl, rfl⟩

theorem flipv : Statement .flipv := ⟨rfl, rfl, rfl⟩

theorem pack : Statement .pack := ⟨rfl, rfl, rfl⟩

theorem unpack : Statement .unpack := ⟨rfl, rfl, rfl⟩

theorem hex2rgb : Statement .hex2rgb := ⟨rfl, rfl, rfl⟩

theorem rgb2hex : Statement .rgb2hex := ⟨rfl, rfl, rfl⟩

theorem showmsg : Statement .showmsg := ⟨rfl, rfl, rfl⟩

end Sys2Proof.Laws.EncodeRoundTrip
end

