-- ==== Sys2Proof/Laws/Run.lean ====
section
/-!
SUPPORT. Runs of the machine: `core.run` step by step, stated with `step`, so that no proof unfolds the host's `run`.
-/

namespace Sys2Proof.Machine

/-- The first step of a run of any machine. -/
theorem run_succ_of_step (M : Host.Core) (k : Nat) (s t : M.State) (h : M.step s = .next t) : M.run (k + 1) s = M.run k t := by
  simp only [Host.Core.run, h]

/-- A run of any machine that reaches `t` after `j` steps goes on from `t`. -/
theorem run_add_of_run (M : Host.Core) (j k : Nat) (s t : M.State) (h : M.run j s = .next t) : M.run (j + k) s = M.run k t := by
  induction j generalizing s with
  | zero =>
    simp only [Host.Core.run, Host.Outcome.next.injEq] at h
    rw [h, Nat.zero_add]
  | succ j ih =>
    rw [show j + 1 + k = (j + k) + 1 by omega]
    simp only [Host.Core.run] at h ⊢
    split at h
    · exact ih _ h
    · cases h
    · cases h

theorem core_run_zero (s : State) : Sys2Proof.core.run 0 s = .next s := rfl

/-- The first step of a run. -/
theorem core_run_succ (k : Nat) (s t : State) (h : step s = .next t) : Sys2Proof.core.run (k + 1) s = Sys2Proof.core.run k t :=
  run_succ_of_step Sys2Proof.core k s t h

/-- A run that reaches `t` after `j` steps goes on from `t`. -/
theorem core_run_add (j k : Nat) (s t : State) (h : Sys2Proof.core.run j s = .next t) :
    Sys2Proof.core.run (j + k) s = Sys2Proof.core.run k t :=
  run_add_of_run Sys2Proof.core j k s t h

/-- A step whose event is the agenda's first. -/
theorem step_of_agenda (s : State) (e : Event) (rest : List Event) (h : s.agenda = e :: rest) :
    step s = State.deliver e { s with agenda := rest } := by
  unfold step State.move
  rw [h]

end Sys2Proof.Machine
end

