-- ==== Sys2Proof/Laws/Step.lean ====
section
/-!
SUPPORT. What one step can do, said once: which agent moved and what it did. Proofs over all steps cite `step_cases`, `seqNext_cases`,
`resume_cases` and `answered_cases` and unfold neither the agenda nor the sequencer.
-/

namespace Sys2Proof.Machine

/-- The state a step works on: the first event is taken off the agenda, and an ARB draw may be counted. -/
def State.scheduled (s : State) (rest : List Event) (n : Nat) : State := { s with agenda := rest, arbCount := n }

/-- The moves of the agents: what a step answers, and when. -/
inductive Move (s : State) (rest : List Event) (n : Nat) : Out → Prop where
  | host (a : BusAccess) : s.agenda = .host a :: rest → Move s rest n (.next ((s.scheduled rest n).hostAccess a))
  | execute : s.pending.valid = true → s.pipe = .free → Move s rest n (s.scheduled rest n).execute
  | resume (p : DevReply) :
      s.pipe = .host → s.outcome = none → s.devAns = some p → Move s rest n (.next ((s.scheduled rest n).resume p))
  | request :
      s.pipe = .host → s.outcome = none → s.devAns = none → s.flushDue = true → s.devReq = none →
      Move s rest n (.next (s.scheduled rest n).requestFlush)
  | complete (r : Report) : s.pipe = .host → s.outcome = some r → Move s rest n (.next ((s.scheduled rest n).completeStep r))
  | seq (t : State) : (s.scheduled rest n).seqNext = some t → Move s rest n (.next t)
  | tick : s.agenda = .tick :: rest → Move s rest n (.next (s.scheduled rest n).tick)
  | answer (a : DevAnswer) (r : DevRequest) :
      s.agenda = .answer a :: rest → s.devReq = some r → Move s rest n ((s.scheduled rest n).answered r a)
  | reset : s.agenda = .reset :: rest → Move s rest n (.next (s.scheduled rest n).resetStep)
  | wait : Move s rest n (.next (s.scheduled rest n))

/-- A flush is requested exactly when it is due and no request is outstanding. -/
theorem flushNext_cases (s t : State) (h : s.flushNext = some t) : s.flushDue = true ∧ s.devReq = none ∧ t = s.requestFlush := by
  unfold State.flushNext at h
  split at h
  · rename_i hc
    injection h with h
    rw [Bool.and_eq_true, Option.isNone_iff_eq_none] at hc
    exact ⟨hc.1, hc.2, h.symm⟩
  · cases h

theorem flushNext_of_due (s : State) (hf : s.flushDue = true) (hd : s.devReq = none) : s.flushNext = some s.requestFlush := by
  unfold State.flushNext
  rw [hf, hd]
  rfl

theorem flushNext_of_not_due (s : State) (hf : s.flushDue = false) : s.flushNext = none := by
  unfold State.flushNext
  rw [hf]
  rfl

/-- The steps of CMDENG: execute, request a flush, go on after an answer, complete (30_encoding R91, 20_memory R80). -/
inductive CmdMove (s : State) : Out → Prop where
  | execute : s.pending.valid = true → s.pipe = .free → CmdMove s s.execute
  | resume (p : DevReply) : s.pipe = .host → s.outcome = none → s.devAns = some p → CmdMove s (.next (s.resume p))
  | request : s.pipe = .host → s.outcome = none → s.devAns = none → s.flushDue = true → s.devReq = none →
      CmdMove s (.next s.requestFlush)
  | complete (r : Report) : s.pipe = .host → s.outcome = some r → CmdMove s (.next (s.completeStep r))

/-- Every step CMDENG is ready to make is one of its steps. -/
theorem cmdengNext_cases (s : State) (o : Out) (h : s.cmdengNext = some o) : CmdMove s o := by
  unfold State.cmdengNext at h
  split at h
  · rename_i hp
    split at h
    · rename_i hv
      injection h with h
      exact h ▸ .execute hv hp
    · cases h
  · rename_i hp
    split at h
    · rename_i r ho
      injection h with h
      exact h ▸ .complete r hp ho
    · rename_i ho
      split at h
      · rename_i q hq
        injection h with h
        exact h ▸ .resume q hp ho hq
      · rename_i hq
        obtain ⟨t, ht, rfl⟩ := Option.map_eq_some_iff.mp h
        obtain ⟨hf, hd, rfl⟩ := flushNext_cases s t ht
        exact .request hp ho hq hf hd
  · cases h

theorem cmdengStep_move (s : State) (rest : List Event) (n : Nat) : Move s rest n (s.scheduled rest n).cmdengStep := by
  unfold State.cmdengStep
  split
  · rename_i o h
    cases cmdengNext_cases _ _ h with
    | execute hv hp => exact .execute hv hp
    | resume q hp ho hq => exact .resume q hp ho hq
    | request hp ho hq hf hd => exact .request hp ho hq hf hd
    | complete r hp ho => exact .complete r hp ho
  · exact .wait

theorem seqStep_move (s : State) (rest : List Event) (n : Nat) : Move s rest n (s.scheduled rest n).seqStep := by
  unfold State.seqStep
  split
  · rename_i h
    exact .seq _ h
  · exact .wait

/-- Every step is one agent's move. -/
theorem step_cases (s : State) : ∃ rest n, Move s rest n (step s) := by
  unfold step State.move
  split
  · rename_i ha
    unfold State.ownStep
    have e : s = s.scheduled [] s.arbCount := by
      unfold State.scheduled
      rw [← ha]
    have e' : { s with arbCount := s.arbCount + 1 } = s.scheduled [] (s.arbCount + 1) := by
      unfold State.scheduled
      rw [← ha]
    split
    · split
      · dsimp only
        rw [e']
        split
        · exact ⟨[], s.arbCount + 1, cmdengStep_move s [] _⟩
        · exact ⟨[], s.arbCount + 1, seqStep_move s [] _⟩
      · have := cmdengStep_move s [] s.arbCount
        rw [← e] at this
        exact ⟨_, _, this⟩
    · have := seqStep_move s [] s.arbCount
      rw [← e] at this
      exact ⟨_, _, this⟩
  · rename_i ev rest ha
    refine ⟨rest, s.arbCount, ?_⟩
    show Move s rest s.arbCount (State.deliver ev (s.scheduled rest s.arbCount))
    cases ev with
    | host a => exact .host a ha
    | cmdeng => exact cmdengStep_move s rest _
    | seq => exact seqStep_move s rest _
    | tick => exact .tick ha
    | answer a =>
      unfold State.deliver State.deviceAnswer
      dsimp only
      cases hd : s.devReq with
      | none =>
        have : (s.scheduled rest s.arbCount).devReq = none := hd
        rw [this]
        exact .wait
      | some r =>
        have : (s.scheduled rest s.arbCount).devReq = some r := hd
        rw [this]
        exact .answer a r ha hd
    | reset => exact .reset ha

/-- The steps of SEQ (43_scroll R164-R169). -/
inductive SeqMove (s : State) : State → Prop where
  | startFails : s.sq.phase = .start → s.sq.reqValid = true → s.pipe = .free → s.lifecycle ≠ .ready →
      SeqMove s (s.endRequest .state (lcause s.lifecycle))
  | start : s.sq.phase = .start → s.sq.reqValid = true → s.pipe = .free → s.lifecycle = .ready →
      SeqMove s ((s.fillPixels 0).seqFlush .start)
  | take : s.sq.phase = .run → s.sq.tickPending = true → ¬ s.sq.offset < s.sq.tw → SeqMove s s.takeStep
  | frameFails : s.sq.phase = .run → s.sq.tickPending = true → s.sq.offset < s.sq.tw → s.pipe = .free → s.lifecycle ≠ .ready →
      SeqMove s (State.endRunning .state (lcause s.lifecycle) { s with sq := { s.sq with tickPending := false } })
  | frame : s.sq.phase = .run → s.sq.tickPending = true → s.sq.offset < s.sq.tw → s.pipe = .free → s.lifecycle = .ready →
      SeqMove s
        ((State.putGrid (frameColor Config.font s.sq.cur s.sq.offset.toNat)
          { s with sq := { s.sq with tickPending := false } }).seqFlush .frame)
  | finishFails : s.sq.phase = .finish → s.pipe = .free → s.lifecycle ≠ .ready →
      SeqMove s (s.endFinish .state (lcause s.lifecycle))
  | finish : s.sq.phase = .finish → s.pipe = .free → s.lifecycle = .ready → SeqMove s ((s.fillPixels 0).seqFlush .finish)
  | request (k : SeqKind) : s.pipe = .seq k → s.devAns = none → s.flushDue = true → s.devReq = none → SeqMove s s.requestFlush
  | resume (k : SeqKind) (p : DevReply) : s.pipe = .seq k → s.devAns = some p → SeqMove s (s.seqResume k p.answer)

/-- Every step SEQ is ready to begin is one of its steps. -/
theorem seqBegin_cases (s t : State) (h : s.seqBegin = some t) : SeqMove s t := by
  unfold State.seqBegin at h
  split at h
  · rename_i hp
    split at h
    · rename_i hc
      injection h with h
      subst h
      unfold State.startOp
      split
      · rename_i hl
        exact .startFails hp hc.1 hc.2 hl
      · rename_i hl
        exact .start hp hc.1 hc.2 (not_not.mp hl)
    · cases h
  · rename_i hp
    split at h
    · rename_i ht
      split at h
      · rename_i ho
        split at h
        · rename_i hf
          injection h with h
          subst h
          unfold State.frameOp
          dsimp only
          split
          · rename_i hl
            exact .frameFails hp ht ho hf hl
          · rename_i hl
            exact .frame hp ht ho hf (not_not.mp hl)
        · cases h
      · rename_i ho
        injection h with h
        subst h
        exact .take hp ht ho
    · cases h
  · rename_i hp
    split at h
    · rename_i hf
      injection h with h
      subst h
      unfold State.finishOp
      split
      · rename_i hl
        exact .finishFails hp hf hl
      · rename_i hl
        exact .finish hp hf (not_not.mp hl)
    · cases h
  · cases h
  · cases h

/-- Every step SEQ is ready to make is one of its steps. -/
theorem seqNext_cases (s t : State) (h : s.seqNext = some t) : SeqMove s t := by
  unfold State.seqNext at h
  split at h
  · rename_i k p hp ha
    injection h with h
    exact h ▸ .resume k p hp ha
  · rename_i k hp ha
    split at h
    · rename_i u hu
      injection h with h
      obtain ⟨hf, hd, rfl⟩ := flushNext_cases s u hu
      exact h ▸ .request k hp ha hf hd
    · exact seqBegin_cases s t h
  · exact seqBegin_cases s t h
  · exact seqBegin_cases s t h

/-- What SEQ's going on leaves: PIPE free, the answer taken up, and nothing but the sequencer record and SCROLL_DONE changed besides. -/
theorem State.seqResume_frame (k : SeqKind) (a : DevAnswer) (s : State) :
    ∃ q d, s.seqResume k a = { s with devAns := none, pipe := .free, sq := q, done := d } := by
  cases k <;> cases a <;> exact ⟨_, _, rfl⟩

/-- While SEQ has no flush to request and no answer to take up, its next step is one it can begin. -/
theorem seqNext_eq_seqBegin (s : State) (h : SeqMayBegin s) : s.seqNext = s.seqBegin := by
  unfold State.seqNext
  split
  · rename_i k p hp ha
    exact absurd (h k hp).2 (by rw [ha]; exact Option.some_ne_none p)
  · rename_i k hp ha
    rw [flushNext_of_not_due s (h k hp).1]
  · rfl
  · rfl

/-- How a host command goes on after DEVICE's answer (41_display_lifecycle R126, R127; 42_display_pixels R150). -/
inductive Resumes (s : State) : DevReply → State → Prop where
  | opened : Resumes s ⟨.openDev, .ok⟩ { s with devAns := none, devOpen := true, lifecycle := .ready, outcome := some .success }
  | closed (a : DevAnswer) :
      Resumes s ⟨.closeDev, a⟩ { s with devAns := none, devOpen := false, lifecycle := .closed, outcome := some a.report }
  | notOpened (c : Byte) : Resumes s ⟨.openDev, .fail c⟩ { s with devAns := none, outcome := some (.deviceIo c) }
  | flushed (b : List Byte) (a : DevAnswer) : Resumes s ⟨.write b, a⟩ { s with devAns := none, outcome := some a.report }

/-- Every host command goes on in one of these ways. -/
theorem resume_cases (s : State) (p : DevReply) : Resumes s p (s.resume p) := by
  obtain ⟨r, a⟩ := p
  cases r with
  | openDev =>
    cases a with
    | ok => exact .opened
    | fail c => exact .notOpened c
  | closeDev => exact .closed a
  | write b => exact .flushed b a

theorem makes_of_free (r : DevRequest) : Pipe.makes .free r = false := by cases r <;> rfl

theorem makes_of_host (r : DevRequest) : Pipe.makes .host r = true := rfl

/-- An answer is delivered to the owner that made the request, and nothing else changes; it stops the machine only when the owner does not
make the request. -/
theorem answered_cases (s : State) (r : DevRequest) (a : DevAnswer) :
    (s.pipe.makes r = true ∧ s.answered r a = .next (Delivered s r a)) ∨
    (s.pipe.makes r = false ∧ s.answered r a = .fault .misownedAnswer) := by
  unfold State.answered
  cases h : s.pipe.makes r
  · exact .inr ⟨rfl, rfl⟩
  · exact .inl ⟨rfl, rfl⟩

/-! ### The stages of a pipeline operation -/

/-- The stages of a sound pipeline, each with what stands in it. -/
inductive PipelineStage (s : State) : Prop where
  | free : s.pipe = .free → s.flushDue = false → s.devReq = none → s.devAns = none → s.outcome = none → PipelineStage s
  | due : s.pipe = .host → s.flushDue = true → s.devReq = none → s.devAns = none → s.outcome = none → s.pending.valid = false →
      s.lifecycle = .ready → PipelineStage s
  | asked (r : DevRequest) : s.pipe = .host → s.flushDue = false → s.devReq = some r → s.devAns = none → s.outcome = none →
      s.pending.valid = false → r.FromHost s → PipelineStage s
  | answered (p : DevReply) : s.pipe = .host → s.flushDue = false → s.devReq = none → s.devAns = some p → s.outcome = none →
      s.pending.valid = false → p.request.FromHost s → PipelineStage s
  | ended (r : Report) : s.pipe = .host → s.flushDue = false → s.devReq = none → s.devAns = none → s.outcome = some r →
      s.pending.valid = false → r.FromDevice → PipelineStage s
  | seqDue (k : SeqKind) : s.pipe = .seq k → s.flushDue = true → s.devReq = none → s.devAns = none → s.outcome = none →
      k.Stands s → PipelineStage s
  | seqAsked (k : SeqKind) (r : DevRequest) : s.pipe = .seq k → s.flushDue = false → s.devReq = some r → s.devAns = none →
      s.outcome = none → r = .write s.fbBytes → k.Stands s → PipelineStage s
  | seqAnswered (k : SeqKind) (p : DevReply) : s.pipe = .seq k → s.flushDue = false → s.devReq = none → s.devAns = some p →
      s.outcome = none → p.request = .write s.fbBytes → k.Stands s → PipelineStage s

/-- A sound pipeline is in one of the stages. -/
theorem State.PipelineSound.stage (s : State) (h : s.PipelineSound) : PipelineStage s := by
  unfold State.PipelineSound at h
  split at h
  · exact .free ‹_› ‹_› ‹_› ‹_› ‹_›
  · exact .due ‹_› ‹_› ‹_› ‹_› ‹_› h.1 h.2
  · exact .asked _ ‹_› ‹_› ‹_› ‹_› ‹_› h.1 h.2
  · exact .answered _ ‹_› ‹_› ‹_› ‹_› ‹_› h.1 h.2
  · exact .ended _ ‹_› ‹_› ‹_› ‹_› ‹_› h.1 h.2
  · exact .seqDue _ ‹_› ‹_› ‹_› ‹_› ‹_› h
  · exact .seqAsked _ _ ‹_› ‹_› ‹_› ‹_› ‹_› h.1 h.2
  · exact .seqAnswered _ _ ‹_› ‹_› ‹_› ‹_› ‹_› h.1 h.2
  · exact h.elim

/-- A pipeline in one of the stages is sound. -/
theorem PipelineStage.sound (s : State) (h : PipelineStage s) : s.PipelineSound := by
  unfold State.PipelineSound
  cases h with
  | free a g b c d => rw [a, g, b, c, d]; trivial
  | due a g b c d e f => rw [a, g, b, c, d]; exact ⟨e, f⟩
  | asked r a g b c d e f => rw [a, g, b, c, d]; exact ⟨e, f⟩
  | answered p a g b c d e f => rw [a, g, b, c, d]; exact ⟨e, f⟩
  | ended r a g b c d e f => rw [a, g, b, c, d]; exact ⟨e, f⟩
  | seqDue k a g b c d e => rw [a, g, b, c, d]; exact e
  | seqAsked k r a g b c d e f => rw [a, g, b, c, d]; exact ⟨e, f⟩
  | seqAnswered k p a g b c d e f => rw [a, g, b, c, d]; exact ⟨e, f⟩

end Sys2Proof.Machine
end

