-- ==== Sys2Proof/Tests/Slice0.lean ====
section
/-!
SUPPORT. The model's own tests. Expected values come from spec/: the opcode map (30_encoding R93, R94), the worked vectors of
95_test_vectors (V-… in a docstring), or the rule named. After them stand the witnesses: for every statement with hypotheses a concrete
state and operands that meet all of them together, for each clause at a boundary of its range.
-/

namespace Sys2Proof.Tests

open Sys2Proof.Machine

/-! ### Helpers -/

/-- One fact of the state a step leaves, if it leaves one. -/
def after {α : Type} (o : Out) (f : State → α) : Option α :=
  match o with
  | .next t => some (f t)
  | .fault _ => none
  | .refused _ => none

/-- The state a step leaves, or `d` where it stops. -/
def nextOr (d : State) (o : Out) : State :=
  match o with
  | .next t => t
  | .fault _ => d
  | .refused _ => d

/-- Right after reset. -/
def uninit : State := State.reset

/-- After a successful INIT. -/
def ready : State := { State.reset with lifecycle := .ready, devOpen := true }

/-- After CLOSE. -/
def closed : State := { State.reset with lifecycle := .closed }

/-- COLOR_RG and COLOR_B written. -/
def colored (rg b : Word) (s : State) : State := { s with regs := { s.regs with colorRg := rg, colorB := b } }

/-- POS written. -/
def positioned (w : Word) (s : State) : State := { s with regs := { s.regs with pos := w } }

/-- ARG written. -/
def argued (w : Word) (s : State) : State := { s with regs := { s.regs with arg := w } }

/-- HEXLEN, HEXIN0 and HEXIN1 written. -/
def hexed (len w0 w1 : Word) (s : State) : State := { s with regs := { s.regs with hexlen := len, hexin0 := w0, hexin1 := w1 } }

/-- MSHAPE and ROWLEN written. -/
def shaped (rows lens : Word) (s : State) : State := { s with regs := { s.regs with mshape := rows, rowlen := lens } }

/-- A word of memory written. -/
def stored (a : Nat) (v : Word) (s : State) : State := { s with mem := s.mem.writeWord a v }

/-- A pixel word written. -/
def lit (i : Nat) (v : Half) (s : State) : State := { s with mem := s.mem.setPixel i v }

/-- A message of `len` bytes staged, its first bytes in `w`. -/
def spoken (len w : Word) (s : State) : State := stored 0xC00 w { s with regs := { s.regs with textlen := len } }

/-- A command latched with nothing else going on. -/
def latched (i : Instr) (s : State) : State := s.latch (encode i)

/-- The one step that runs a command at a state where SEQ is idle (30_encoding R91). -/
def run (i : Instr) (s : State) : Out := step (latched i s)

/-- A scroll call "HI" with tag 1. -/
def hiCall : ScrollCall := { text := [0x48, 0x49], n := 2, tcolor := ⟨255, 0, 0⟩, bcolor := ⟨0, 0, 255⟩, interval := 10, tag := 1 }

/-- READY, with "HI" waiting in START. -/
def starting : State := { ready with sq := { ready.sq with phase := .start, reqValid := true, req := hiCall, lastTag := 1 } }

/-- READY, with "HI" running, offset `o`, and an interval just above. -/
def framing (o : BitVec 16) : State :=
  { ready with sq := { ready.sq with phase := .run, cur := hiCall, tw := 28, offset := o, tickPending := true, lastTag := 1 } }

/-- READY, with "HI" in FINISH. -/
def finishing : State := { (framing 28) with sq := { (framing 28).sq with phase := .finish, tickPending := false } }

/-- READY, with "HI" waiting in SETTLE for `k` more ticks. -/
def settling (k : BitVec 11) : State := { starting with sq := { starting.sq with phase := .settle, settleCnt := k } }

/-- The owner `p` has updated FB and its flush is due. -/
def dueTo (p : Pipe) (s : State) : State := { s with pipe := p, flushDue := true }

/-- Waiting for DEVICE, with the request of the owner `p` outstanding. -/
def asking (p : Pipe) (r : DevRequest) (s : State) : State := { s with pipe := p, devReq := some r }

/-- DEVICE has answered the request of the owner `p`. -/
def told (p : Pipe) (r : DevRequest) (a : DevAnswer) (s : State) : State := { s with pipe := p, devAns := some ⟨r, a⟩ }

/-- A host command that waited, about to complete with the report `r`. -/
def ending (r : Report) (s : State) : State := { s with pipe := .host, outcome := some r }

/-! ### Decoding: every opcode of 30_encoding R93, and the edges of R94's ranges -/

theorem test_decode_lifecycle :
    decode 0x00000000 = .ok .nop ∧ decode 0x00000001 = .ok .init ∧ decode 0x00000002 = .ok .close ∧
    decode 0x00000003 = .ok .setrot ∧ decode 0x00000004 = .ok .setlowlight := by decide

theorem test_decode_pixels :
    decode 0x00000010 = .ok .setpix ∧ decode 0x00000011 = .ok .getpix ∧ decode 0x00000012 = .ok .setpixs ∧
    decode 0x00000013 = .ok .fill ∧ decode 0x00000014 = .ok .clear ∧ decode 0x00000015 = .ok .setmatrix ∧
    decode 0x00000016 = .ok .getmatrix ∧ decode 0x00000017 = .ok .fliph ∧ decode 0x00000018 = .ok .flipv := by decide

theorem test_decode_codec_and_scroll :
    decode 0x00000020 = .ok .pack ∧ decode 0x00000021 = .ok .unpack ∧ decode 0x00000022 = .ok .hex2rgb ∧
    decode 0x00000023 = .ok .rgb2hex ∧ decode 0x00000030 = .ok .showmsg := by decide

theorem test_decode_rejects :
    decode 0x00000110 = .error .rsvNonzero ∧ decode 0x80000000 = .error .rsvNonzero ∧ decode 0x00000105 = .error .rsvNonzero ∧
    decode 0x00000005 = .error .reservedOpcode ∧ decode 0x000000FF = .error .reservedOpcode := by decide

/-- The bytes of a CMD write, lane 0 first (20_memory R70). -/
theorem test_decode_bytes :
    decodeBytes 0x13 0x00 0x00 0x00 = .ok .fill ∧ decodeBytes 0x00 0x00 0x00 0x13 = .error .rsvNonzero ∧
    decodeTableWord 32 0x13 = some .fill ∧ decodeTableWord 8 0x13 = some .fill ∧ decodeTableWord 32 0x1300 = none := by decide

/-- WellFormed: a reserved bit (R92), and both ends of each reserved range (R94), are refused; their neighbours are not. -/
theorem test_wellformed :
    [0x00000100, 0x80000000, 0x00000110].all (fun w => !rsvZero w && !wordWellFormed w) = true ∧
    [0x05, 0x0F, 0x19, 0x1F, 0x24, 0x2F, 0x31, 0xFF].all (fun w => !opcodeAssigned (opField w) && !wordWellFormed w) = true ∧
    [0x00, 0x04, 0x10, 0x18, 0x20, 0x23, 0x30].all (fun w => wordWellFormed w) = true := by decide

/-! ### One step per command -/

/-- V-LC1. -/
theorem test_nop : after (run .nop { uninit with err := 0x00130302 }) (fun t => (t.err, t.lifecycle, t.cmdBusy)) =
    some (0, .uninit, false) := by decide

/-- V-LC2 up to the request, and V-BU7's STATUS. -/
theorem test_init : after (run .init uninit) (fun t => (t.devReq, t.statusWord)) = some (some .openDev, 0x01) := by decide

/-- V-LC3, V-LC9. -/
theorem test_init_twice : after (run .init ready) (fun t => (t.err, t.devReq)) = some (0x00010202, none) ∧
    after (run .init closed) (fun t => t.err) = some 0x00010302 := by decide

/-- V-LC5, V-LC7. -/
theorem test_close_elsewhere : after (run .close uninit) (fun t => (t.err, t.devReq)) = some (0x00020102, none) ∧
    after (run .close closed) (fun t => (t.err, t.devReq)) = some (0x00020000, none) := by decide

/-- V-LC10: CLOSED although DevClose fails, CMD_BUSY still 1; then the complete step. -/
theorem test_close_fails :
    after (step { told .host .closeDev (.fail 0x2A) ready with pending := { valid := false, word := 0x02 } })
      (fun t => (t.err, t.statusWord, t.devOpen, t.outcome)) = some (0, 0x05, false, some (.deviceIo 0x2A)) ∧
    after (step { ending (.deviceIo 0x2A) closed with pending := { valid := false, word := 0x02 } })
      (fun t => (t.err, t.statusWord)) = some (0x00022A03, 0x04) := by decide

/-- V-LC11, V-LC13. -/
theorem test_setrot : after (run .setrot (argued 0x5A ready)) (fun t => t.statusWord) = some 0x12 ∧
    after (run .setrot (argued 0xFFFF010E ready)) (fun t => t.rot) = some 3 := by decide

/-- V-LC12, V-LC14. -/
theorem test_setrot_invalid :
    [0x168, 0xFFA6, 0x2D].all (fun d => after (run .setrot (argued d ready)) (fun t => (t.err, t.rot)) == some (0x00030401, 0)) = true ∧
    after (run .setrot (argued 0x168 uninit)) (fun t => t.err) = some 0x00030102 := by decide

/-- V-LC15, V-LC16. -/
theorem test_setlowlight : after (run .setlowlight (argued 1 ready)) (fun t => t.statusWord) = some 0x0A ∧
    after (run .setlowlight (argued 2 { ready with lowlight := true })) (fun t => t.lowlight) = some false := by decide

/-- V-PX1, with the update visible while no flush is requested yet (20_memory R80). -/
theorem test_setpix :
    after (run .setpix (positioned 0x0201 (colored 0x000000FF 0 { ready with rot := 1 })))
      (fun t => (t.fb 13, t.mem.readWord 0x118, t.pipe, t.flushDue, t.devReq)) =
      some (0xF800, 0xF8000000, .host, true, none) := by decide +kernel

/-- V-PX1's flush, the next step: byte 2i of the request is the low byte of FB[i] (20_memory R72). -/
theorem test_flush_request :
    after (step (dueTo .host (lit 13 0xF800 ready)))
      (fun t => (t.devReq == some (.write (List.replicate 27 0 ++ [0xF8] ++ List.replicate 100 0)), t.flushDue)) =
      some (true, false) := by decide +kernel

/-- V-PX3, V-PX4, V-PX5. -/
theorem test_setpix_invalid :
    [0x08, 0xFF].all (fun w => after (run .setpix (positioned w (colored 0x100 0 ready))) (fun t => (t.err, t.devReq)) ==
      some (0x00100101, none)) = true := by decide

/-- V-PX2. -/
theorem test_getpix :
    after (run .getpix (positioned 0x0201 (lit 13 0xF800 { ready with rot := 1 }))) (fun t => (t.resultRgb, t.devReq)) =
      some (0xFF, none) := by decide +kernel

/-- V-PX21. -/
theorem test_getpix_invalid :
    after (run .getpix (positioned 0x0800 { ready with resultRgb := 7 })) (fun t => (t.err, t.resultRgb)) = some (0x00110101, 7) := by decide

/-- V-PX15: two entries for one pixel, the later one wins. -/
theorem test_setpixs :
    after (run .setpixs (argued 2 (stored 0x804 0x00FF00FF (stored 0x808 0xFF (stored 0x814 0x000000FF ready)))))
      (fun t => (t.fb 0, t.fb 1, t.pipe)) = some (0xF800, 0, .host) := by decide +kernel

/-- V-PX17, V-PX18. -/
theorem test_setpixs_invalid :
    after (run .setpixs (argued 0x41 ready)) (fun t => (t.err, t.devReq)) = some (0x00120601, none) ∧
    after (run .setpixs (argued 4 (stored 0x818 0x100 (stored 0x830 0x09 ready)))) (fun t => (t.err, t.devReq)) =
      some (0x01120201, none) := by decide +kernel

/-- V-LL1 through FILL. -/
theorem test_fill :
    after (run .fill (colored 0x00FF00FF 0xFF { ready with lowlight := true })) (fun t => (t.fb 0, t.fb 63, t.pipe)) =
      some (0x18E3, 0x18E3, .host) := by decide +kernel

/-- V-LC8. -/
theorem test_fill_closed :
    after (run .fill (colored 0x000000FF 0 closed)) (fun t => (t.err, t.fb 0, t.devReq)) = some (0x00130302, 0, none) := by decide +kernel

/-- V-PX8's CLEAR: the memory is empty again. -/
theorem test_clear :
    after (run .clear (lit 63 0x18E3 (lit 0 0x18E3 { ready with lowlight := true }))) (fun t => (t.mem, t.pipe)) =
      some ([], .host) := by decide +kernel

/-- V-PX13. -/
theorem test_setmatrix :
    after (run .setmatrix (shaped 8 0x88888888 (stored 0x200 0x000000FF { ready with rot := 1 }))) (fun t => (t.fb 7, t.fb 0)) =
      some (0xF800, 0) := by decide +kernel

/-- V-PX9, V-PX10, V-PX11. -/
theorem test_setmatrix_invalid :
    after (run .setmatrix (shaped 7 0x88888888 ready)) (fun t => t.err) = some 0x00150301 ∧
    after (run .setmatrix (shaped 8 0x88888878 ready)) (fun t => t.err) = some 0x00150301 ∧
    after (run .setmatrix (shaped 8 0x88888888 (stored 0x248 0x12C ready))) (fun t => (t.err, t.devReq)) = some (0x09150201, none) := by
  decide +kernel

/-- V-PX14. -/
theorem test_getmatrix :
    after (run .getmatrix (lit 7 0xF800 { ready with rot := 1 }))
      (fun t => (t.mem.readWord 0x400, t.mem.readWord 0x404, t.devReq, t.fb 7)) = some (0xFF, 0, none, 0xF800) := by decide +kernel

/-- V-FL1, V-FL3. -/
theorem test_fliph :
    after (run .fliph (lit 0 0xFFFF ready)) (fun t => (t.fb 7, t.fb 0)) = some (0xFFFF, 0) ∧
    after (run .fliph (lit 0 0xFFFF { ready with lowlight := true })) (fun t => (t.fb 7, t.fb 0)) = some (0x18E3, 0) := by decide +kernel

/-- V-FL6: FLIPH under a rotation of 90 degrees. -/
theorem test_fliph_rotated :
    after (run .fliph (lit 0 0xFFFF { ready with rot := 1 })) (fun t => (t.fb 56, t.fb 0)) = some (0xFFFF, 0) := by decide +kernel

/-- V-FL5. -/
theorem test_flipv :
    after (run .flipv (lit 0 0xFFFF ready)) (fun t => (t.fb 56, t.fb 0)) = some (0xFFFF, 0) := by decide +kernel

/-- V-CO1, V-CO6, V-CO14. -/
theorem test_pack :
    after (run .pack (colored 0x00400080 0x20 uninit)) (fun t => (t.result565, t.err)) = some (0x8204, 0x00200000) ∧
    after (run .pack (colored 0x006400C8 0x32 closed)) (fun t => t.result565) = some 0xCB26 ∧
    after (run .pack (colored 0x00FF00FF 0xFF { ready with lowlight := true })) (fun t => t.result565) = some 0xFFFF := by decide

/-- V-CO11, V-CO12. -/
theorem test_pack_invalid :
    [0x00000100, 0xFFFF0000].all (fun w => after (run .pack (colored w 0 { uninit with result565 := 9 })) (fun t => (t.err, t.result565)) ==
      some (0x00200201, 9)) = true := by decide

/-- V-CO2, V-CO8, V-CO10. -/
theorem test_unpack :
    after (run .unpack (argued 0x8204 uninit)) (fun t => t.resultRgb) = some 0x00214184 ∧
    after (run .unpack (argued 0xABCD8204 uninit)) (fun t => t.resultRgb) = some 0x00214184 ∧
    after (run .unpack (argued 0x18E3 uninit)) (fun t => t.resultRgb) = some 0x00181C18 := by decide

/-- V-CO15, V-CO16, V-CO21. -/
theorem test_hex2rgb :
    after (run .hex2rgb (hexed 7 0x46303823 0x00313046 uninit)) (fun t => (t.resultRgb, t.err)) = some (0x0001FF80, 0x00220000) ∧
    after (run .hex2rgb (hexed 7 0x66303823 0x5A313066 uninit)) (fun t => t.resultRgb) = some 0x0001FF80 := by decide

/-- V-CO17, V-CO19, V-CO20. -/
theorem test_hex2rgb_invalid :
    after (run .hex2rgb (hexed 6 0x30464638 0x00003130 uninit)) (fun t => t.err) = some 0x00220501 ∧
    after (run .hex2rgb (hexed 7 0x46303830 0x00313046 uninit)) (fun t => t.err) = some 0x00220501 ∧
    after (run .hex2rgb (hexed 7 0x47303823 0x00313046 uninit)) (fun t => (t.err, t.resultRgb)) = some (0x03220501, 0) := by decide

/-- V-CO22, V-CO24. -/
theorem test_rgb2hex :
    after (run .rgb2hex (colored 0x000000FF 0x80 uninit)) (fun t => (t.hexout0, t.hexout1)) = some (0x30666623, 0x00303830) ∧
    after (run .rgb2hex (colored 0x00CD00AB 0xEF uninit)) (fun t => (t.hexout0, t.hexout1)) = some (0x63626123, 0x00666564) := by decide

/-- V-CO25. -/
theorem test_rgb2hex_invalid :
    after (run .rgb2hex (colored 0 300 uninit)) (fun t => (t.err, t.hexout0)) = some (0x00230201, 0) := by decide

/-- R160's example: "hi" with SPEED 100, and V-SC4: an empty message. -/
theorem test_showmsg :
    after (run .showmsg (spoken 2 0x00006968 { ready with regs := { ready.regs with speed := 100 } }))
      (fun t => (t.sq.phase, t.sq.req.text, t.sq.req.n, t.sq.req.interval, t.sq.req.tag)) = some (.start, [0x48, 0x49], 2, 100, 1) ∧
    after (run .showmsg uninit) (fun t => (t.err, t.scrollDoneWord, t.sq.phase, t.devReq)) = some (0x00300000, 0x0101, .idle, none) := by
  decide +kernel

/-- V-SC6, V-SC7, V-SC8. -/
theorem test_showmsg_invalid :
    after (run .showmsg (spoken 257 0 ready)) (fun t => (t.err, t.sq.lastTag)) = some (0x00300601, 0) ∧
    after (run .showmsg { ready with regs := { ready.regs with backcolB := 0x100 } }) (fun t => t.err) = some 0x01300201 ∧
    after (run .showmsg { ready with regs := { ready.regs with textcolRg := 0xFFFF } }) (fun t => t.err) = some 0x00300201 := by
  decide +kernel

/-! ### One step of the other agents -/

/-- V-ER1, V-ER2, V-ER4: ILLEGAL before STATE. -/
theorem test_illegal :
    after (step (uninit.latch 0x00000110)) (fun t => t.err) = some 0x00100104 ∧
    after (step (closed.latch 0x00000005)) (fun t => t.err) = some 0x00050204 := by decide

/-- V-BU1, V-BU3, V-BU4. -/
theorem test_bus_reads :
    (uninit.hostRead 0x000 4 = .readOkay 0x35363546) ∧ uninit.hostRead 0x002 4 = .buserr ∧ uninit.hostRead 0x000 2 = .buserr ∧
    [0x054, 0x06C, 0x180, 0xD00, 0xFFC].all (fun o => uninit.hostRead o 4 == .buserr) = true ∧ (lit 63 0x1234 ready).hostRead 0x17C 4 =
      .readOkay 0x12340000 := by decide +kernel

/-- V-BU7, V-BU8, V-BU9: dropped writes set HAZ; W1C clears it. -/
theorem test_bus_interlock :
    after (step { asking .host .openDev uninit with agenda := [.host (.write 0x010 4 0x0201)] })
      (fun t => (t.regs.pos, t.statusWord, t.busResp)) = some (0, 0x41, .writeOkay) ∧
    after (step { ready with haz := true, agenda := [.host (.write 0x008 4 0x40)] }) (fun t => t.statusWord) = some 0x02 := by decide

/-- V-SC9: START outside READY. -/
theorem test_start_uninit :
    after (step { starting with lifecycle := .uninit, devOpen := false }) (fun t => (t.scrollDoneWord, t.sq.phase, t.devReq)) =
      some (0x00010121, .idle, none) := by decide

/-- V-SC10's frame 0 is all background (0, 0, 255), whatever the font. -/
theorem test_frame_zero :
    after (step (framing 0)) (fun t => ((List.range 64).all (fun i => t.fb i == 0x001F), t.pipe)) = some (true, .seq .frame) := by
  decide +kernel

/-- 43_scroll R165, R169: TAKE with every column shown, and FINISH answered ok. -/
theorem test_take_and_finish :
    after (step (framing 28)) (fun t => (t.sq.phase, t.sq.tickPending)) = some (.finish, false) ∧
    after (step (told (.seq .finish) (.write []) .ok finishing)) (fun t => (t.scrollDoneWord, t.sq.phase, t.pipe)) =
      some (0x0101, .idle, .free) := by decide

/-! ### Witnesses: safe states -/

theorem witness_ready_safe : ready.Safe where
  canonical := by decide
  mapped := by intro c h; cases h
  handle := rfl
  latched := rfl
  registers := ⟨rfl, by decide, rfl, rfl, rfl, .inl rfl⟩
  pipeline := trivial
  sequencer := rfl

/-- INIT latched, right after reset. -/
theorem witness_opening_safe : (latched .init uninit).Safe where
  canonical := by decide
  mapped := by intro c h; cases h
  handle := rfl
  latched := rfl
  registers := ⟨rfl, by decide, rfl, rfl, rfl, .inl rfl⟩
  pipeline := trivial
  sequencer := rfl

/-- INIT with DevOpen's answer to take up. -/
def opening : State := told .host .openDev .ok uninit

/-- CLOSE with DevClose's answer to take up. -/
def closing : State := told .host .closeDev (.fail 1) ready

theorem witness_opening_waits_safe : opening.Safe where
  canonical := by decide
  mapped := by intro c h; cases h
  handle := rfl
  latched := rfl
  registers := ⟨rfl, by decide, rfl, rfl, rfl, .inl rfl⟩
  pipeline := ⟨rfl, rfl⟩
  sequencer := rfl

theorem witness_closing_waits_safe : closing.Safe where
  canonical := by decide
  mapped := by intro c h; cases h
  handle := rfl
  latched := rfl
  registers := ⟨rfl, by decide, rfl, rfl, rfl, .inl rfl⟩
  pipeline := ⟨rfl, rfl⟩
  sequencer := rfl

/-- EveryStepIsSafe, the other stages of a pipeline operation: a host flush due, INIT's request outstanding, INIT about to complete, and a
frame due, requested and answered. -/
theorem witness_stages_safe :
    (dueTo .host ready).PipelineSound ∧ (dueTo (.seq .frame) (framing 27)).PipelineSound ∧
    (asking .host .openDev uninit).PipelineSound ∧ (ending (.deviceIo 0xFF) uninit).PipelineSound ∧
    (asking (.seq .frame) (.write (framing 27).fbBytes) (framing 27)).PipelineSound ∧
    (told (.seq .frame) (.write (framing 27).fbBytes) .ok (framing 27)).PipelineSound :=
  ⟨⟨rfl, rfl⟩, ⟨rfl, rfl, by decide⟩, ⟨rfl, rfl⟩, ⟨rfl, .inr ⟨_, rfl⟩⟩, ⟨rfl, rfl, rfl, by decide⟩, rfl, rfl, rfl, by decide⟩

theorem witness_animating_safe : (framing 0).Safe where
  canonical := by decide
  mapped := by intro c h; cases h
  handle := rfl
  latched := rfl
  registers := ⟨rfl, by decide, rfl, rfl, rfl, .inl rfl⟩
  pipeline := trivial
  sequencer := ⟨rfl, ⟨⟨rfl, by decide, by decide, by decide, by decide⟩, rfl, by decide⟩, by decide⟩

/-! ### Witnesses: the hypotheses of the statements, by statement -/

/-- StepRunsDecodedCommand: without and with a ready SEQ. -/
theorem witness_step_runs :
    ((latched .nop ready).pending.valid = true ∧ (latched .nop ready).pipe = .free ∧ decode (latched .nop ready).pending.word = .ok .nop ∧
      (latched .nop ready).agenda = [] ∧ (latched .nop ready).seqReady = false) ∧
    (latched .nop starting).pending.valid = true ∧ (latched .nop starting).pipe = .free ∧
    decode (latched .nop starting).pending.word = .ok .nop ∧ (latched .nop starting).agenda = [] ∧
    (latched .nop starting).seqReady = true := by decide +kernel

/-- IllegalWordsChangeOnlyErr: the least reserved bit, and both ends of each reserved range. -/
theorem witness_illegal_words :
    ((uninit.latch 0x100).pending.valid = true ∧ (uninit.latch 0x100).pipe = .free ∧
      (uninit.latch 0x100).pending.word.extractLsb' 8 24 ≠ 0) ∧
    [0x05, 0x0F, 0x19, 0x1F, 0x24, 0x2F, 0x31, 0xFF].all (fun w => decide (
      (uninit.latch w).pending.valid = true ∧ (uninit.latch w).pipe = .free ∧ (uninit.latch w).pending.word.extractLsb' 8 24 = 0 ∧
      let op := ((uninit.latch w).pending.word.extractLsb' 0 8).toNat
      (0x05 ≤ op ∧ op ≤ 0x0F) ∨ (0x19 ≤ op ∧ op ≤ 0x1F) ∨ (0x24 ≤ op ∧ op ≤ 0x2F) ∨ (0x31 ≤ op ∧ op ≤ 0xFF))) = true := by decide

/-- Valid colors at 0 and 255, and each channel out of range by one or negative (PACK, RGB2HEX, SETPIX, FILL, SHOWMSG). -/
theorem witness_colors :
    HoldsColor 0x00000000 0x00000000 ⟨0, 0, 0⟩ ∧ HoldsColor 0x00FF00FF 0x000000FF ⟨255, 255, 255⟩ ∧
    HoldsColor 0x00FF00FF 0xABCD00FF ⟨255, 255, 255⟩ ∧ BadColor 0x00000100 0 ∧ BadColor 0x01000000 0 ∧ BadColor 0 0x100 ∧
    BadColor 0x0000FFFF 0 ∧ ¬ BadColor 0x00FF00FF 0xABCD00FF := by unfold HoldsColor BadColor; decide

/-- Valid positions at both corners, and each coordinate at 8 and at -1 (SETPIX, GETPIX, SETPIXS). -/
theorem witness_positions :
    HoldsPos 0x00000000 ⟨0, 0⟩ ∧ HoldsPos 0x00000707 ⟨7, 7⟩ ∧ BadPos 0x08 ∧ BadPos 0x0800 ∧ BadPos 0xFF ∧ BadPos 0xFF00 ∧
    ¬ BadPos 0xABCD0707 := by unfold HoldsPos BadPos; decide

/-- PackStoresQuantizedColor and HexFormatsLowercase, both clauses. -/
theorem witness_pack_and_rgb2hex :
    let good := colored 0x00FF00FF 0xFF uninit
    let bad := colored 0x100 0 uninit
    (Latched .pack (latched .pack good) ∧ HoldsColor (latched .pack good).regs.colorRg (latched .pack good).regs.colorB ⟨255, 255, 255⟩) ∧
    (Latched .pack (latched .pack bad) ∧ BadColor (latched .pack bad).regs.colorRg (latched .pack bad).regs.colorB) ∧
    (Latched .rgb2hex (latched .rgb2hex good) ∧
      HoldsColor (latched .rgb2hex good).regs.colorRg (latched .rgb2hex good).regs.colorB ⟨255, 255, 255⟩) ∧
    Latched .rgb2hex (latched .rgb2hex bad) ∧ BadColor (latched .rgb2hex bad).regs.colorRg (latched .rgb2hex bad).regs.colorB := by
  unfold Latched HoldsColor BadColor; decide

/-- UnpackExpandsFields. -/
theorem witness_unpack : Latched .unpack (latched .unpack uninit) := rfl

/-- HexParsesOrNamesFirstBadDigit, the parse: "#80FF01". -/
theorem witness_hex2rgb :
    let s := latched .hex2rgb (hexed 7 0x46303823 0x00313046 uninit)
    Latched .hex2rgb s ∧ s.regs.hexlen.extractLsb' 0 8 = 7 ∧ hexByte s.regs 0 = 0x23 ∧
    ∀ k, 1 ≤ k → k ≤ 6 → IsHexDigit (hexByte s.regs k) ([0, 8, 0, 15, 15, 0, 1].getD k 0) := by
  refine ⟨rfl, by decide, by decide, ?_⟩
  intro k h1 h2
  interval_cases k <;> (unfold IsHexDigit; decide)

/-- HexParsesOrNamesFirstBadDigit, the errors at once: lengths 6 and 8, and no '#'. -/
theorem witness_hex2rgb_length :
    let six := latched .hex2rgb (hexed 6 0x30464638 0x00003130 uninit)
    let eight := latched .hex2rgb (hexed 8 0x46303823 0x00313046 uninit)
    let bare := latched .hex2rgb (hexed 7 0x46303830 0x00313046 uninit)
    (Latched .hex2rgb six ∧ six.regs.hexlen.extractLsb' 0 8 ≠ 7) ∧ (Latched .hex2rgb eight ∧ eight.regs.hexlen.extractLsb' 0 8 ≠ 7) ∧
    Latched .hex2rgb bare ∧ bare.regs.hexlen.extractLsb' 0 8 = 7 ∧ hexByte bare.regs 0 ≠ 0x23 := by unfold Latched; decide

/-- HexParsesOrNamesFirstBadDigit, a bad digit: the first ('G' at 1), and only the last ('g' at 6). -/
theorem witness_hex2rgb_digit :
    let first := latched .hex2rgb (hexed 7 0x46304723 0x00313046 uninit)
    let last := latched .hex2rgb (hexed 7 0x46303823 0x00673046 uninit)
    (Latched .hex2rgb first ∧ first.regs.hexlen.extractLsb' 0 8 = 7 ∧ hexByte first.regs 0 = 0x23 ∧
      ∀ v, ¬ IsHexDigit (hexByte first.regs 1) v) ∧
    (Latched .hex2rgb last ∧ last.regs.hexlen.extractLsb' 0 8 = 7 ∧ hexByte last.regs 0 = 0x23 ∧
      ∀ v, ¬ IsHexDigit (hexByte last.regs 6) v) ∧
    ∀ j, 1 ≤ j → j < 6 → ∃ v, IsHexDigit (hexByte last.regs j) v := by
  intro first last
  refine ⟨⟨rfl, by decide, by decide, ?_⟩, ⟨rfl, by decide, by decide, ?_⟩, ?_⟩
  · have e : (hexByte first.regs 1).toNat = 0x47 := by decide
    rintro v (⟨h, h'⟩ | ⟨h, h', h'' | h''⟩) <;> omega
  · have e : (hexByte last.regs 6).toNat = 0x67 := by decide
    rintro v (⟨h, h'⟩ | ⟨h, h', h'' | h''⟩) <;> omega
  · intro j h1 h2
    refine ⟨[0, 8, 0, 15, 15, 0].getD j 0, ?_⟩
    interval_cases j <;> (unfold IsHexDigit; decide)

/-- HexFormatThenParseRestoresColor. -/
theorem witness_hex_round_trip :
    HoldsColor (colored 0x000000FF 0x80 uninit).regs.colorRg (colored 0x000000FF 0x80 uninit).regs.colorB ⟨255, 0, 128⟩ ∧
    exec .rgb2hex (colored 0x000000FF 0x80 uninit) = .next (nextOr uninit (exec .rgb2hex (colored 0x000000FF 0x80 uninit))) ∧
    (nextOr uninit (exec .rgb2hex (colored 0x000000FF 0x80 uninit))).hexout0 = (hexed 7 0x30666623 0x00303830 uninit).regs.hexin0 ∧
    (nextOr uninit (exec .rgb2hex (colored 0x000000FF 0x80 uninit))).hexout1 = (hexed 7 0x30666623 0x00303830 uninit).regs.hexin1 ∧
    (hexed 7 0x30666623 0x00303830 uninit).regs.hexlen = 7 := ⟨⟨rfl, rfl⟩, rfl, by decide, by decide, rfl⟩

/-- NopWritesOnlyErr. -/
theorem witness_nop : Latched .nop (latched .nop uninit) := rfl

/-- InitOpensOnce: each lifecycle state. -/
theorem witness_init :
    (Latched .init (latched .init uninit) ∧ (latched .init uninit).lifecycle = .uninit) ∧
    (Latched .init (latched .init ready) ∧ (latched .init ready).lifecycle = .ready) ∧
    Latched .init (latched .init closed) ∧ (latched .init closed).lifecycle = .closed := by unfold Latched; decide

/-- CloseIsTerminalAndIdempotent: each lifecycle state. -/
theorem witness_close :
    (Latched .close (latched .close uninit) ∧ (latched .close uninit).lifecycle = .uninit) ∧
    (Latched .close (latched .close ready) ∧ (latched .close ready).lifecycle = .ready) ∧
    Latched .close (latched .close closed) ∧ (latched .close closed).lifecycle = .closed := by unfold Latched; decide

/-- InitOpensOnce, CloseIsTerminalAndIdempotent and every FlushesThenCompletes, each stage of a command that waits: its flush due, asked,
answered ok and with a cause, over with success and with a cause. -/
theorem witness_host_stages (i : Instr) (r : DevRequest) (c : Byte) :
    let s := latched i ready
    (Latched i (dueTo .host s) ∧ (dueTo .host s).pipe = .host ∧ (dueTo .host s).outcome = none ∧ (dueTo .host s).flushDue = true ∧
      (dueTo .host s).devReq = none ∧ (dueTo .host s).devAns = none) ∧
    (Latched i (asking .host r s) ∧ (asking .host r s).pipe = .host ∧ (asking .host r s).devReq = some r) ∧
    (Latched i (told .host r .ok s) ∧ (told .host r .ok s).pipe = .host ∧ (told .host r .ok s).outcome = none ∧
      (told .host r .ok s).devAns = some ⟨r, .ok⟩) ∧
    (Latched i (told .host r (.fail c) s) ∧ (told .host r (.fail c) s).pipe = .host ∧ (told .host r (.fail c) s).outcome = none ∧
      (told .host r (.fail c) s).devAns = some ⟨r, .fail c⟩) ∧
    (Latched i (ending .success s) ∧ (ending .success s).pipe = .host ∧ (ending .success s).outcome = some .success) ∧
    Latched i (ending (.deviceIo c) s) ∧ (ending (.deviceIo c) s).pipe = .host ∧ (ending (.deviceIo c) s).outcome = some (.deviceIo c) :=
  ⟨⟨rfl, rfl, rfl, rfl, rfl, rfl⟩, ⟨rfl, rfl, rfl⟩, ⟨rfl, rfl, rfl, rfl⟩, ⟨rfl, rfl, rfl, rfl⟩, ⟨rfl, rfl, rfl⟩, rfl, rfl, rfl⟩

/-- Every GateRefuses: the gate meets UNINIT and CLOSED with the command latched. -/
theorem witness_gate (i : Instr) :
    (Latched i (latched i uninit) ∧ (latched i uninit).lifecycle = .uninit) ∧
    Latched i (latched i closed) ∧ (latched i closed).lifecycle = .closed := ⟨⟨rfl, rfl⟩, rfl, rfl⟩

/-- Every statement about a command in READY: latched and READY. -/
theorem witness_in_ready (i : Instr) : Latched i (latched i ready) ∧ (latched i ready).lifecycle = .ready := ⟨rfl, rfl⟩

/-- GatedCommandsNeedReady: the first and the last command of its list, at a state the gate refuses. -/
theorem witness_gated_commands :
    Instr.setrot ∈ [Instr.setrot, .setlowlight, .setpix, .getpix, .setpixs, .fill, .clear, .setmatrix, .getmatrix, .fliph, .flipv] ∧
    Instr.flipv ∈ [Instr.setrot, .setlowlight, .setpix, .getpix, .setpixs, .fill, .clear, .setmatrix, .getmatrix, .fliph, .flipv] ∧
    (latched .flipv uninit).lifecycle = .uninit ∧ (latched .setrot closed).lifecycle = .closed := by decide

/-- SetrotStoresQuarterTurns: 0, 270 with a set upper half, and the values beside the valid ones. -/
theorem witness_setrot :
    let at0 := latched .setrot (argued 0 ready)
    let at270 := latched .setrot (argued 0xFFFF010E ready)
    (Latched .setrot at0 ∧ at0.lifecycle = .ready ∧ at0.regs.arg.toNat % 65536 = 90 * 0) ∧
    (Latched .setrot at270 ∧ at270.lifecycle = .ready ∧ at270.regs.arg.toNat % 65536 = 90 * 3) ∧
    [89, 91, 360, 0xFFA6].all (fun w => decide (
      (latched .setrot (argued w ready)).pending.word = encode .setrot ∧ (latched .setrot (argued w ready)).lifecycle = .ready) &&
      (List.range 4).all (fun k => decide ((latched .setrot (argued w ready)).regs.arg.toNat % 65536 ≠ 90 * k))) = true := by
  unfold Latched; decide

/-- SetpixWritesOnePixel, each clause. -/
theorem witness_setpix :
    let good := latched .setpix (positioned 0x0707 (colored 0xFF 0 ready))
    let off := latched .setpix (positioned 0x0800 (colored 0x100 0 ready))
    let dull := latched .setpix (positioned 0x0707 (colored 0x100 0 ready))
    (Latched .setpix good ∧ good.lifecycle = .ready ∧ HoldsPos good.regs.pos ⟨7, 7⟩ ∧
      HoldsColor good.regs.colorRg good.regs.colorB ⟨255, 0, 0⟩) ∧
    (Latched .setpix off ∧ off.lifecycle = .ready ∧ BadPos off.regs.pos) ∧
    Latched .setpix dull ∧ dull.lifecycle = .ready ∧ ¬ BadPos dull.regs.pos ∧ BadColor dull.regs.colorRg dull.regs.colorB := by
  unfold Latched HoldsPos HoldsColor BadPos BadColor; decide

/-- GetpixReadsStoredColor, each clause. -/
theorem witness_getpix :
    let good := latched .getpix (positioned 0x0707 ready)
    let off := latched .getpix (positioned 0x0008 ready)
    (Latched .getpix good ∧ good.lifecycle = .ready ∧ HoldsPos good.regs.pos ⟨7, 7⟩) ∧
    Latched .getpix off ∧ off.lifecycle = .ready ∧ BadPos off.regs.pos := by unfold Latched HoldsPos BadPos; decide

/-- FillWritesEveryPixel, each clause. -/
theorem witness_fill :
    let good := latched .fill (colored 0x00FF00FF 0xFF ready)
    let bad := latched .fill (colored 0 0x100 ready)
    (Latched .fill good ∧ good.lifecycle = .ready ∧ HoldsColor good.regs.colorRg good.regs.colorB ⟨255, 255, 255⟩) ∧
    Latched .fill bad ∧ bad.lifecycle = .ready ∧ BadColor bad.regs.colorRg bad.regs.colorB := by
  unfold Latched HoldsColor BadColor; decide

/-- SetpixsWritesWholeBatchOrNothing, a valid batch: n = 64, all at (0, 0), so that only the last is kept; and n = 0. -/
theorem witness_setpixs :
    let full := latched .setpixs (argued 64 ready)
    let none := latched .setpixs (argued 0 ready)
    (Latched .setpixs full ∧ full.lifecycle = .ready ∧ full.regs.arg.toNat % 65536 = 64 ∧
      (∀ j < 64, HoldsPos (full.mem.readWord (0x800 + 16 * j)) ⟨0, 0⟩ ∧
        HoldsColor (full.mem.readWord (0x804 + 16 * j)) (full.mem.readWord (0x808 + 16 * j)) ⟨0, 0, 0⟩) ∧
      ∀ k < 64, 63 < k → physIndex full.rot ⟨0, 0⟩ ≠ physIndex full.rot ⟨0, 0⟩) ∧
    Latched .setpixs none ∧ none.lifecycle = .ready ∧ none.regs.arg.toNat % 65536 = 0 := by
  unfold Latched HoldsPos HoldsColor; decide +kernel

/-- SetpixsWritesWholeBatchOrNothing, the errors: n = 65, a first bad entry at 0 (its position) and at 63 (its color). -/
theorem witness_setpixs_errors :
    let above := latched .setpixs (argued 65 ready)
    let first := latched .setpixs (argued 64 (stored 0x800 0x08 ready))
    let last := latched .setpixs (argued 64 (stored 0xBF8 0x100 ready))
    (Latched .setpixs above ∧ above.lifecycle = .ready ∧ 64 < above.regs.arg.toNat % 65536) ∧
    (Latched .setpixs first ∧ first.lifecycle = .ready ∧ first.regs.arg.toNat % 65536 = 64 ∧
      BadPos (first.mem.readWord (0x800 + 16 * 0))) ∧
    Latched .setpixs last ∧ last.lifecycle = .ready ∧ last.regs.arg.toNat % 65536 = 64 ∧
    (∀ k < 63, ¬ BadPos (last.mem.readWord (0x800 + 16 * k)) ∧
      ¬ BadColor (last.mem.readWord (0x804 + 16 * k)) (last.mem.readWord (0x808 + 16 * k))) ∧
    ¬ BadPos (last.mem.readWord (0x800 + 16 * 63)) ∧ BadColor (last.mem.readWord (0x804 + 16 * 63)) (last.mem.readWord (0x808 + 16 * 63)) := by
  unfold Latched BadPos BadColor; decide +kernel

/-- SetmatrixWritesGridOrNothing: a valid grid, two wrong shapes, and a first bad color at entry 0 and at entry 63. -/
theorem witness_setmatrix :
    let good := latched .setmatrix (shaped 8 0x88888888 ready)
    let short := latched .setmatrix (shaped 7 0x88888888 ready)
    let ragged := latched .setmatrix (shaped 8 0x78888888 ready)
    let first := latched .setmatrix (shaped 8 0x88888888 (stored 0x200 0x100 ready))
    let last := latched .setmatrix (shaped 8 0x88888888 (stored 0x3FC 0x100 ready))
    (Latched .setmatrix good ∧ good.lifecycle = .ready ∧ (good.regs.mshape.toNat % 256 = 8 ∧ good.regs.rowlen = 0x88888888) ∧
      ∀ e < 64, HoldsColor (good.mem.readWord (0x200 + 8 * e)) (good.mem.readWord (0x204 + 8 * e)) ⟨0, 0, 0⟩) ∧
    (Latched .setmatrix short ∧ short.lifecycle = .ready ∧ ¬ (short.regs.mshape.toNat % 256 = 8 ∧ short.regs.rowlen = 0x88888888)) ∧
    (Latched .setmatrix ragged ∧ ragged.lifecycle = .ready ∧ ¬ (ragged.regs.mshape.toNat % 256 = 8 ∧ ragged.regs.rowlen = 0x88888888)) ∧
    (Latched .setmatrix first ∧ first.lifecycle = .ready ∧ (first.regs.mshape.toNat % 256 = 8 ∧ first.regs.rowlen = 0x88888888) ∧
      BadColor (first.mem.readWord (0x200 + 8 * 0)) (first.mem.readWord (0x204 + 8 * 0))) ∧
    Latched .setmatrix last ∧ last.lifecycle = .ready ∧ (last.regs.mshape.toNat % 256 = 8 ∧ last.regs.rowlen = 0x88888888) ∧
    (∀ k < 63, ¬ BadColor (last.mem.readWord (0x200 + 8 * k)) (last.mem.readWord (0x204 + 8 * k))) ∧
    BadColor (last.mem.readWord (0x200 + 8 * 63)) (last.mem.readWord (0x204 + 8 * 63)) := by
  unfold Latched HoldsColor BadColor; decide +kernel

/-- FlipTwiceRestoresWithoutLowlight: a lit pixel flipped each way, the second state being the one the first flip left; and a pixel word
that is not 0. -/
theorem witness_flip_twice :
    let s := lit 0 0xFFFF ready
    let t := nextOr ready (exec .fliph s)
    let t' := nextOr ready (exec .flipv s)
    (s.mem.wf ∧ s.lifecycle = .ready ∧ s.lowlight = false) ∧
    (exec .fliph s = .next t ∧ t.rot = s.rot ∧ t.lowlight = false ∧ t.lifecycle = .ready) ∧
    (exec .flipv s = .next t' ∧ t'.rot = s.rot ∧ t'.lowlight = false ∧ t'.lifecycle = .ready) ∧ (0xFFFF : Half) ≠ 0 :=
  ⟨⟨by decide +kernel, rfl, rfl⟩, ⟨rfl, rfl, rfl, rfl⟩, ⟨rfl, rfl, rfl, rfl⟩, by decide⟩

/-- FlushCountIsOneOrNone: one of each kind answers a next state; a flush that is due; and one already requested. -/
theorem witness_flush_count :
    (exec .clear (latched .clear ready) = .next (nextOr ready (exec .clear (latched .clear ready))) ∧
      Instr.clear ∈ [Instr.setpix, .setpixs, .fill, .clear, .setmatrix, .fliph, .flipv]) ∧
    exec .pack (latched .pack ready) = .next (nextOr ready (exec .pack (latched .pack ready))) ∧
    Instr.pack ∈ [Instr.getpix, .getmatrix, .setrot, .setlowlight, .nop, .pack, .unpack, .hex2rgb, .rgb2hex, .showmsg] ∧
    ((dueTo .host ready).pipe = .host ∧ (dueTo .host ready).outcome = none ∧ (dueTo .host ready).devAns = none ∧
      (dueTo .host ready).devReq = none ∧ (dueTo .host ready).flushDue = true) ∧
    let asked := asking .host (.write ready.fbBytes) ready
    asked.pipe = .host ∧ asked.flushDue = false ∧ Next .cmdeng asked = .next (nextOr ready (Next .cmdeng asked)) :=
  ⟨⟨rfl, by decide⟩, rfl, by decide, ⟨rfl, rfl, rfl, rfl, rfl⟩, rfl, rfl, rfl⟩

/-- ShowmsgChecksThenHandsOver: length 257; each bad color; a message of 256 bytes that filters to nothing, and one of 2 that does not. -/
theorem witness_showmsg :
    let long := latched .showmsg (spoken 257 0 ready)
    let dull := latched .showmsg { ready with regs := { ready.regs with textcolRg := 0xFFFF } }
    let dim := latched .showmsg { ready with regs := { ready.regs with backcolB := 0x100 } }
    let blank := latched .showmsg (spoken 256 0x0A23 ready)
    let hi := latched .showmsg (spoken 2 0x6968 ready)
    (Latched .showmsg long ∧ 256 < long.regs.textlen.toNat % 65536) ∧
    (Latched .showmsg dull ∧ dull.regs.textlen.toNat % 65536 ≤ 256 ∧ BadColor dull.regs.textcolRg dull.regs.textcolB) ∧
    (Latched .showmsg dim ∧ dim.regs.textlen.toNat % 65536 ≤ 256 ∧ HoldsColor dim.regs.textcolRg dim.regs.textcolB ⟨0, 0, 0⟩ ∧
      BadColor dim.regs.backcolRg dim.regs.backcolB) ∧
    (Latched .showmsg blank ∧ blank.regs.textlen.toNat % 65536 = 256 ∧ HoldsColor blank.regs.textcolRg blank.regs.textcolB ⟨0, 0, 0⟩ ∧
      HoldsColor blank.regs.backcolRg blank.regs.backcolB ⟨0, 0, 0⟩ ∧
      filterText ((List.range 256).map (fun k => blank.mem.readByte (0xC00 + k))) = []) ∧
    Latched .showmsg hi ∧ hi.regs.textlen.toNat % 65536 = 2 ∧ HoldsColor hi.regs.textcolRg hi.regs.textcolB ⟨0, 0, 0⟩ ∧
    HoldsColor hi.regs.backcolRg hi.regs.backcolB ⟨0, 0, 0⟩ ∧
    filterText ((List.range 2).map (fun k => hi.mem.readByte (0xC00 + k))) ≠ [] := by
  unfold Latched HoldsColor BadColor; decide +kernel

/-- OfferReplacesOrSettles: each SEQ_STATE. -/
theorem witness_offer :
    ready.sq.phase = .idle ∧ (framing 0).sq.phase = .run ∧ (settling 1).sq.phase = .settle ∧ starting.sq.phase = .start ∧
    finishing.sq.phase = .finish := by decide

/-- TextFilterKeepsSupportedUppercase: 'z' is kept, '[' is not. -/
theorem witness_text_filter : supported (upper 0x7A) = true ∧ supported (upper 0x5B) = false := by decide

/-- TickCountsIntervalAndSettling: ticks 9 and 10 of an interval of 10; 2 and 1 settling ticks left. -/
theorem witness_tick :
    let ninth := { framing 0 with sq := { (framing 0).sq with tcount := 8 } }
    let tenth := { framing 0 with sq := { (framing 0).sq with tcount := 9 } }
    (tenth.sq.phase = .run ∧ tenth.sq.tcount + 1 = tenth.sq.cur.interval) ∧
    (ninth.sq.phase = .run ∧ ninth.sq.tcount + 1 ≠ ninth.sq.cur.interval) ∧
    ((settling 1).sq.phase = .settle ∧ (settling 1).sq.settleCnt = 1) ∧
    ((settling 2).sq.phase = .settle ∧ (settling 2).sq.settleCnt ≠ 1) ∧ ready.sq.phase = .idle := by decide

/-- The stages of a SEQ operation (StartClearsThenRuns, FrameWritesWindowThenAdvances, FinishClearsThenCompletes): its flush due, asked,
and answered ok and with a cause. -/
theorem witness_seq_stages (k : SeqKind) (b : List Byte) (c : Byte) :
    let s := ready
    ((dueTo (.seq k) s).pipe = .seq k ∧ (dueTo (.seq k) s).flushDue = true ∧ (dueTo (.seq k) s).devReq = none ∧
      (dueTo (.seq k) s).devAns = none) ∧
    ((asking (.seq k) (.write b) s).pipe = .seq k ∧ (asking (.seq k) (.write b) s).devReq = some (.write b)) ∧
    ((told (.seq k) (.write b) .ok s).pipe = .seq k ∧ (told (.seq k) (.write b) .ok s).devAns = some ⟨.write b, .ok⟩) ∧
    (told (.seq k) (.write b) (.fail c) s).pipe = .seq k ∧
    (told (.seq k) (.write b) (.fail c) s).devAns = some ⟨.write b, .fail c⟩ := ⟨⟨rfl, rfl, rfl, rfl⟩, ⟨rfl, rfl⟩, ⟨rfl, rfl⟩, rfl, rfl⟩

/-- With no flush due and no answer of DEVICE in the machine, SEQ's next step is one it begins. -/
theorem mayBegin_of_none {s : State} (hf : s.flushDue = false) (ha : s.devAns = none) : SeqMayBegin s := fun _ _ => ⟨hf, ha⟩

/-- StartClearsThenRuns: READY; UNINIT; no step with PIPE owned by HOST, by SEQ itself, and with no request. -/
theorem witness_start :
    let early := { starting with lifecycle := .uninit, devOpen := false }
    let behind := asking .host .closeDev starting
    let asked := asking (.seq .start) (.write starting.fbBytes) starting
    let bare := { starting with sq := { starting.sq with reqValid := false } }
    (starting.sq.phase = .start ∧ starting.sq.reqValid = true ∧ starting.pipe = .free ∧ starting.lifecycle = .ready) ∧
    (early.sq.phase = .start ∧ early.sq.reqValid = true ∧ early.pipe = .free ∧ early.lifecycle ≠ .ready) ∧
    (behind.sq.phase = .start ∧ SeqMayBegin behind ∧ behind.pipe ≠ .free) ∧
    (asked.sq.phase = .start ∧ SeqMayBegin asked ∧ asked.pipe ≠ .free) ∧
    bare.sq.phase = .start ∧ SeqMayBegin bare ∧ bare.sq.reqValid = false :=
  ⟨by decide, by decide, ⟨rfl, mayBegin_of_none rfl rfl, by decide⟩, ⟨rfl, mayBegin_of_none rfl rfl, by decide⟩, rfl, mayBegin_of_none rfl rfl, rfl⟩

/-- TakeStopsTimer: exactly every column shown. -/
theorem witness_take :
    (framing 28).sq.phase = .run ∧ (framing 28).sq.tickPending = true ∧ (framing 28).sq.tw.toNat ≤ (framing 28).sq.offset.toNat ∧
    SeqMayBegin (framing 28) := ⟨rfl, rfl, by decide, mayBegin_of_none rfl rfl⟩

/-- FrameWritesWindowThenAdvances: the first and the last column; CLOSED; no step in the middle of an interval, and before the
last column with PIPE owned by HOST. -/
theorem witness_frame :
    let late := { framing 27 with lifecycle := .closed, devOpen := false }
    let counting := { framing 0 with sq := { (framing 0).sq with tickPending := false } }
    let behind := asking .host .closeDev (framing 27)
    ((framing 0).sq.phase = .run ∧ (framing 0).sq.tickPending = true ∧ (framing 0).sq.offset.toNat < (framing 0).sq.tw.toNat ∧
      (framing 0).pipe = .free ∧ (framing 0).lifecycle = .ready) ∧
    (late.sq.phase = .run ∧ late.sq.tickPending = true ∧ late.sq.offset.toNat < late.sq.tw.toNat ∧ late.pipe = .free ∧
      late.lifecycle ≠ .ready) ∧
    (counting.sq.phase = .run ∧ SeqMayBegin counting ∧ counting.sq.tickPending = false) ∧
    behind.sq.phase = .run ∧ SeqMayBegin behind ∧ behind.sq.offset.toNat < behind.sq.tw.toNat ∧ behind.pipe ≠ .free :=
  ⟨by decide, by decide, ⟨rfl, mayBegin_of_none rfl rfl, rfl⟩, rfl, mayBegin_of_none rfl rfl, by decide, by decide⟩

/-- FinishClearsThenCompletes: READY; CLOSED; no step with PIPE owned by HOST. -/
theorem witness_finish :
    let late := { finishing with lifecycle := .closed, devOpen := false }
    let behind := asking .host .closeDev finishing
    (finishing.sq.phase = .finish ∧ finishing.pipe = .free ∧ finishing.lifecycle = .ready) ∧
    (late.sq.phase = .finish ∧ late.pipe = .free ∧ late.lifecycle ≠ .ready) ∧
    behind.sq.phase = .finish ∧ SeqMayBegin behind ∧ behind.pipe ≠ .free :=
  ⟨by decide, by decide, rfl, mayBegin_of_none rfl rfl, by decide⟩

/-- BitmapColumnsFollowGlyphs: a text of two characters; the last leading column, the first trailing one, both characters, rows 0 and 7. -/
theorem witness_bitmap :
    7 < 8 ∧ 8 + 6 * hiCall.text.length ≤ 20 ∧ 0 < hiCall.text.length ∧ 1 < hiCall.text.length ∧ (7 : Nat) < 8 := by decide

/-- "HI" just started, interval 10, with the whole animation scheduled. -/
def animating : State :=
  { framing 0 with
    sq := { (framing 0).sq with tickPending := false }, agenda := framesSchedule 10 28 ++ finishSchedule 10 ++ [.seq] }

/-- AnimationShowsEveryColumnThenCompletes: "HI", with 28 frames (43_scroll R173's example). -/
theorem witness_animation :
    animating.sq.phase = .run ∧ animating.sq.reqValid = false ∧ animating.sq.offset = 0 ∧ animating.sq.tcount = 0 ∧
    animating.sq.tickPending = false ∧ 1 ≤ animating.sq.cur.interval.toNat ∧ animating.pipe = .free ∧ animating.flushDue = false ∧ animating.devReq = none ∧
    animating.devAns = none ∧ animating.lifecycle = .ready ∧ animating.sq.tw.toNat = 28 ∧
    animating.agenda = framesSchedule animating.sq.cur.interval.toNat animating.sq.tw.toNat ++
      finishSchedule animating.sq.cur.interval.toNat ++ [.seq] :=
  ⟨rfl, rfl, rfl, rfl, rfl, by decide, rfl, rfl, rfl, rfl, rfl, rfl, rfl⟩

/-- SettlingTakesThousandTicks: the ticks; and no step of SEQ in SETTLE and in IDLE. -/
theorem witness_settling :
    let s := { settling 1000 with agenda := List.replicate 1000 Event.tick ++ [Event.seq] }
    (s.sq.phase = .settle ∧ s.sq.settleCnt = 1000 ∧ s.agenda = List.replicate 1000 Event.tick ++ [Event.seq]) ∧
    ((settling 1).sq.phase = .settle ∧ SeqMayBegin (settling 1)) ∧ ready.sq.phase = .idle ∧ SeqMayBegin ready :=
  ⟨⟨rfl, rfl, rfl⟩, ⟨rfl, mayBegin_of_none rfl rfl⟩, rfl, mayBegin_of_none rfl rfl⟩

/-- BadAccessAnswersBuserr: a misaligned offset, a 2-byte size, and both ends of each reserved range. -/
theorem witness_bad_access :
    [(0x001 : BitVec 12), 0x002, 0xFFF].all (fun o => decide (o.toNat % 4 ≠ 0)) = true ∧ (2 : Nat) ≠ 4 ∧
    [(0x054 : BitVec 12), 0x06C, 0x0FC, 0x180, 0x1FC, 0x500, 0x7FC, 0xD00, 0xFFC].all (fun o => decide (
      (0x054 ≤ o.toNat ∧ o.toNat ≤ 0x057) ∨ (0x06C ≤ o.toNat ∧ o.toNat ≤ 0x0FF) ∨ (0x180 ≤ o.toNat ∧ o.toNat ≤ 0x1FF) ∨
      (0x500 ≤ o.toNat ∧ o.toNat ≤ 0x7FF) ∨ (0xD00 ≤ o.toNat ∧ o.toNat ≤ 0xFFF))) = true := by decide

/-- ReadsAnswerCurrentValues: the ends of each memory range. -/
theorem witness_reads :
    ((0x100 : BitVec 12).toNat % 4 = 0 ∧ (0x17C : BitVec 12).toNat % 4 = 0 ∧ (0x200 : BitVec 12).toNat % 4 = 0 ∧
      (0x4FC : BitVec 12).toNat % 4 = 0 ∧ (0x800 : BitVec 12).toNat % 4 = 0 ∧ (0xCFC : BitVec 12).toNat % 4 = 0) ∧
    (memoryOffset 0x100 ∧ memoryOffset 0x17C ∧ memoryOffset 0x200 ∧ memoryOffset 0x4FC ∧ memoryOffset 0x800 ∧ memoryOffset 0xCFC) ∧
    0 < 32 ∧ 31 < 32 := by unfold memoryOffset; decide

/-- WritesStoreWhenIdle: idle, and the ends of each staging range. -/
theorem witness_writes :
    ready.pending.valid = false ∧ ready.pipe ≠ .host ∧
    [(0x200 : BitVec 12), 0x3FC, 0x800, 0xCFC].all (fun o => decide (
      o.toNat % 4 = 0 ∧ ((0x200 ≤ o.toNat ∧ o.toNat < 0x400) ∨ (0x800 ≤ o.toNat ∧ o.toNat < 0xD00)))) = true := by decide

/-- BusyInterlockDropsWrites: busy with a latched command and busy waiting, and the ends of each range of each clause. -/
theorem witness_interlock :
    ((latched .nop ready).pending.valid = true ∧ (asking .host .openDev uninit).pipe = .host) ∧
    [(0x004 : BitVec 12), 0x010, 0x01C, 0x028, 0x050, 0x200, 0x3FC, 0x800, 0xCFC].all (fun o => decide (
      o.toNat % 4 = 0 ∧ (o = 0x004 ∨ (0x010 ≤ o.toNat ∧ o.toNat ≤ 0x01C) ∨ (0x028 ≤ o.toNat ∧ o.toNat ≤ 0x050) ∨
        (0x200 ≤ o.toNat ∧ o.toNat < 0x400) ∨ (0x800 ≤ o.toNat ∧ o.toNat < 0xD00)))) = true ∧
    ((0x008 : BitVec 12).toNat % 4 = 0 ∧ (0x064 : BitVec 12).toNat % 4 = 0) ∧
    [(0x000 : BitVec 12), 0x068, 0x100, 0x17C, 0x400, 0x4FC].all (fun o => decide (
      o.toNat % 4 = 0 ∧ (o ∈ [(0x000 : BitVec 12), 0x00C, 0x020, 0x024, 0x058, 0x05C, 0x060, 0x068] ∨
        (0x100 ≤ o.toNat ∧ o.toNat < 0x180) ∨ (0x400 ≤ o.toNat ∧ o.toNat < 0x500)))) = true := by decide

/-- StepKeepsMemoryCanonical: a step that writes memory. -/
theorem witness_memory_step :
    (lit 0 0xFFFF ready).mem.wf ∧
    step (latched .clear (lit 0 0xFFFF ready)) = .next (nextOr ready (step (latched .clear (lit 0 0xFFFF ready)))) :=
  ⟨by decide +kernel, rfl⟩

/-- UnspecifiedPayloadsAreNeverRead: two safe states that differ in CUR while SEQ is idle. -/
theorem witness_unspecified :
    ready.Safe ∧ ({ ready with sq := { ready.sq with cur := hiCall } }).Safe ∧
    ready.maskUnspecified = ({ ready with sq := { ready.sq with cur := hiCall } }).maskUnspecified ∧
    ready ≠ { ready with sq := { ready.sq with cur := hiCall } } :=
  ⟨witness_ready_safe,
    { canonical := by decide
      mapped := by intro c h; cases h
      handle := rfl
      latched := rfl
      registers := ⟨rfl, by decide, rfl, rfl, rfl, .inl rfl⟩
      pipeline := trivial
      sequencer := rfl }, rfl, by decide⟩

/-- LifecycleMovesOnlyForward: INIT and CLOSE taking up their answers. -/
theorem witness_lifecycle :
    (opening.Safe ∧ step opening = .next (nextOr ready (step opening))) ∧
    closing.Safe ∧ step closing = .next (nextOr ready (step closing)) :=
  ⟨⟨witness_opening_waits_safe, rfl⟩, witness_closing_waits_safe, rfl⟩

/-- OnlyConfigurationCommandsConfigure: steps that change ROT and LOWLIGHT. -/
theorem witness_configuration :
    (step (latched .setrot (argued 90 ready)) = .next (nextOr ready (step (latched .setrot (argued 90 ready)))) ∧
      (nextOr ready (step (latched .setrot (argued 90 ready)))).rot ≠ (latched .setrot (argued 90 ready)).rot) ∧
    (step (latched .setlowlight (argued 1 ready)) = .next (nextOr ready (step (latched .setlowlight (argued 1 ready)))) ∧
      (nextOr ready (step (latched .setlowlight (argued 1 ready)))).lowlight ≠ (latched .setlowlight (argued 1 ready)).lowlight) ∧
    (∀ rest, (latched .setrot (argued 90 ready)).agenda ≠ .reset :: rest) ∧
    ∀ rest, (latched .setlowlight (argued 1 ready)).agenda ≠ .reset :: rest :=
  ⟨⟨rfl, by decide⟩, ⟨rfl, by decide⟩, fun _ h => List.cons_ne_nil _ _ (h.symm : _ :: _ = []), fun _ h => List.cons_ne_nil _ _ (h.symm : _ :: _ = [])⟩

/-- CommandsNeverWriteOperands: a command that writes memory, and both ends of each range. -/
theorem witness_operands_kept :
    exec .getmatrix (latched .getmatrix ready) = .next (nextOr ready (exec .getmatrix (latched .getmatrix ready))) ∧
    ∀ a ∈ [0x200, 0x3FF, 0x500, 0xFFF], (0x200 ≤ a ∧ a < 0x400) ∨ 0x500 ≤ a := ⟨rfl, by decide⟩

/-- ErrorsChangeOnlyErr: a gated command in UNINIT. -/
theorem witness_errors :
    exec .fill (latched .fill uninit) = .next (nextOr ready (exec .fill (latched .fill uninit))) ∧
    (nextOr ready (exec .fill (latched .fill uninit))).pipe = .free ∧
    (nextOr ready (exec .fill (latched .fill uninit))).err.extractLsb' 0 4 ≠ 0 := ⟨rfl, rfl, by decide⟩

/-- FramebufferChangesOnlyAsFlushComesDue: CLEAR puts out a lit pixel. -/
theorem witness_framebuffer_change :
    step (latched .clear (lit 63 0xFFFF ready)) = .next (nextOr ready (step (latched .clear (lit 63 0xFFFF ready)))) ∧
    ∃ i < 64, (nextOr ready (step (latched .clear (lit 63 0xFFFF ready)))).fb i ≠ (latched .clear (lit 63 0xFFFF ready)).fb i :=
  ⟨rfl, 63, by decide, by decide +kernel⟩

/-- PipelineOwnerWaitsForAnswer and ErrIsWrittenOnlyByHostCommands: INIT's complete step, with an older error in ERR; and the request of
a flush that is due. -/
theorem witness_owner_and_err :
    let s := { ending .success ready with err := 1 }
    let u := dueTo .host ready
    (step s = .next (nextOr ready (step s)) ∧ s.pipe ≠ .free ∧ (nextOr ready (step s)).err ≠ s.err) ∧
    step u = .next (nextOr ready (step u)) ∧ u.pipe ≠ .free := ⟨⟨rfl, by decide, by decide⟩, rfl, by decide⟩

/-- A host flush due, its update of FB made. -/
theorem witness_due_safe : (dueTo .host ready).Safe where
  canonical := by decide
  mapped := by intro c h; cases h
  handle := rfl
  latched := rfl
  registers := ⟨rfl, by decide, rfl, rfl, rfl, .inl rfl⟩
  pipeline := ⟨rfl, rfl⟩
  sequencer := rfl

/-- CLOSE latched in READY. -/
theorem witness_closing_safe : (latched .close ready).Safe where
  canonical := by decide
  mapped := by intro c h; cases h
  handle := rfl
  latched := rfl
  registers := ⟨rfl, by decide, rfl, rfl, rfl, .inl rfl⟩
  pipeline := trivial
  sequencer := rfl

/-- DeviceRequestsFollowHandle: INIT's request, CLOSE's, and a flush's. -/
theorem witness_device_request :
    ((latched .init uninit).Safe ∧ (latched .close ready).Safe ∧ (dueTo .host ready).Safe) ∧
    (step (latched .init uninit) = .next (nextOr ready (step (latched .init uninit))) ∧
      step (latched .close ready) = .next (nextOr ready (step (latched .close ready))) ∧
      step (dueTo .host ready) = .next (nextOr ready (step (dueTo .host ready)))) ∧
    [latched .init uninit, latched .close ready, dueTo .host ready].all (fun s => decide (
      (nextOr ready (step s)).devReq ≠ s.devReq ∧ (nextOr ready (step s)).devReq ≠ none)) = true :=
  ⟨⟨witness_opening_safe, witness_closing_safe, witness_due_safe⟩, ⟨rfl, rfl, rfl⟩, by decide⟩

end Sys2Proof.Tests
end

section
/-!
SUPPORT. What each agent's move leaves, said once on top of the laws of the model: the decoder read from the word's side, HOST's access, a
command, a SEQ step, and `step_effect`, which joins them into one case analysis of a step with an answer. Every invariant below is a
case analysis over these.
-/

namespace Sys2Proof.Machine

/-! ### The decoder, read from the word's side -/

theorem opcode_of_instrOfOpcode (op : Byte) (i : Instr) (h : instrOfOpcode op = some i) : i.opcode = op := by
  unfold instrOfOpcode at h
  split at h <;> cases h <;> exact BitVec.eq_of_toNat_eq (Eq.symm ‹_›)

/-- A word is its RSV and its OP field (30_encoding R87). -/
theorem word_of_fields (w : Word) : w = rsvField w ++ opField w := by
  apply BitVec.eq_of_toNat_eq
  rw [toNat_cat, rsvField, opField, field_toNat, field_toNat]
  have := w.isLt
  omega

/-- A word that decodes to a command is that command's encoding (30_encoding R87, R92, R93). -/
theorem eq_encode_of_decode (w : Word) (i : Instr) (h : decode w = .ok i) : w = encode i := by
  unfold decode at h
  split at h
  · cases h
  · rename_i hr
    split at h
    · rename_i j hj
      cases h
      rw [word_of_fields w, not_not.mp hr, ← opcode_of_instrOfOpcode _ _ hj]
      rfl
    · cases h

/-! ### HOST's access -/

theorem registerAt_not_staging (o : Nat) : registerAt o ≠ .mstage ∧ registerAt o ≠ .batch ∧ registerAt o ≠ .text := by
  unfold registerAt
  split <;> exact ⟨nofun, nofun, nofun⟩

/-- Where the staging memories that HOST may write lie (20_memory R64). -/
theorem offset_of_locate_staging (o : Nat) (h : locate o = .mstage ∨ locate o = .batch ∨ locate o = .text) :
    (0x200 ≤ o ∧ o < 0x400) ∨ (0x800 ≤ o ∧ o < 0xD00) := by
  have hr := registerAt_not_staging o
  unfold locate at h
  split_ifs at h
  · exact absurd h (by simp [hr])
  all_goals simp at h
  all_goals omega

/-- What a HOST access does besides the bus's answer: nothing, HAZ set by a dropped write, or one register or staging word written
(20_memory R61, R69; 70_reset_and_hazards R210). -/
inductive HostEffect (s : State) : State → Prop where
  | unchanged : HostEffect s s
  | dropped : s.cmdBusy = true → HostEffect s { s with haz := true }
  | latched (w : Word) : s.cmdBusy = false → HostEffect s (s.latch w)
  | status (v : Word) : HostEffect s (s.writeStatus v)
  | scrollDone (v : Word) : HostEffect s (s.writeScrollDone v)
  | operand (r : OperandReg) (v : Word) : s.cmdBusy = false → HostEffect s { s with regs := s.regs.set r v }
  | stored (o : Nat) (v : Word) :
      s.cmdBusy = false → o % 4 = 0 → (0x200 ≤ o ∧ o < 0x400) ∨ (0x800 ≤ o ∧ o < 0xD00) → HostEffect s (s.storeWord o v)

/-- The busy interlock: the write itself when CMD_BUSY = 0, HAZ when not (70_reset_and_hazards R210). -/
theorem interlocked_effect (w : State → State) (s : State) (h : s.cmdBusy = false → HostEffect s (w s)) :
    HostEffect s (s.interlocked w) := by
  unfold State.interlocked
  split
  · rename_i hb
    exact .dropped hb
  · rename_i hb
    exact h (Bool.eq_false_iff.mpr hb)

/-- A write that the window map takes has one of the effects (20_memory R61, R64). -/
theorem writeLocation_effect (o : Nat) (v : Word) (s t : State) (ho : o % 4 = 0) (h : s.writeLocation o v = some t) :
    HostEffect s t := by
  unfold State.writeLocation at h
  split at h <;> cases h
  · exact .unchanged
  · exact interlocked_effect _ s fun hb => .latched v hb
  · exact .status v
  · exact .scrollDone v
  · exact interlocked_effect _ s fun hb => .operand _ v hb
  · exact .unchanged
  · exact interlocked_effect _ s fun hb => .stored o v hb ho (offset_of_locate_staging o (.inl ‹_›))
  · exact .unchanged
  · exact interlocked_effect _ s fun hb => .stored o v hb ho (offset_of_locate_staging o (.inr (.inl ‹_›)))
  · exact interlocked_effect _ s fun hb => .stored o v hb ho (offset_of_locate_staging o (.inr (.inr ‹_›)))

/-- A HOST access is one of the effects and an answer of the bus. -/
theorem hostAccess_effect (a : BusAccess) (s : State) : ∃ u r, HostEffect s u ∧ s.hostAccess a = { u with busResp := r } := by
  cases a with
  | read o n => exact ⟨s, _, .unchanged, rfl⟩
  | write o n v =>
    show ∃ u r, _ ∧ s.hostWrite o n v = _
    unfold State.hostWrite
    split
    · rename_i ha
      unfold accessAligned at ha
      simp only [Bool.and_eq_true, decide_eq_true_eq] at ha
      split
      · rename_i u hu
        exact ⟨u, _, writeLocation_effect _ v s u ha.2 hu, rfl⟩
      · exact ⟨s, _, .unchanged, rfl⟩
    · exact ⟨s, _, .unchanged, rfl⟩

/-- What a HOST access can write. -/
theorem HostEffect.writes {s t : State} (h : HostEffect s t) :
    t = { s with regs := t.regs, cmd := t.cmd, pending := t.pending, mem := t.mem, haz := t.haz, done := t.done } := by
  cases h <;> rfl

/-! ### A command and SEQ -/

/-- What the execute step of a command can write: no operand register, not CMD, HAZ, LIFECYCLE or DEV_OPEN. -/
theorem ExecResult.writes {i : Instr} {s t : State} (h : ExecResult i s t) :
    t = { s with
      err := t.err, resultRgb := t.resultRgb, result565 := t.result565, hexout0 := t.hexout0, hexout1 := t.hexout1, mem := t.mem
      rot := t.rot, lowlight := t.lowlight, pending := t.pending, pipe := t.pipe, flushDue := t.flushDue, devReq := t.devReq
      sq := t.sq, done := t.done } := by
  cases h with
  | success u hu =>
    cases hu with
    | message len tc bc =>
      obtain ⟨d, q, he⟩ := State.acceptMessage_frame Config.cancelReports len tc bc s
      rw [he]
      rfl
    | _ => rfl
  | _ => rfl

theorem seqFlushing_writes (k : SeqKind) (s : State) (m : Memory) :
    SeqFlushing k s m = { s with
      mem := (SeqFlushing k s m).mem, pipe := (SeqFlushing k s m).pipe, flushDue := (SeqFlushing k s m).flushDue
      devReq := (SeqFlushing k s m).devReq, devAns := (SeqFlushing k s m).devAns, sq := (SeqFlushing k s m).sq
      done := (SeqFlushing k s m).done } := rfl

/-- What a step of SEQ can write. -/
theorem SeqMove.writes {s t : State} (h : SeqMove s t) :
    t = { s with
      mem := t.mem, pipe := t.pipe, flushDue := t.flushDue, devReq := t.devReq, devAns := t.devAns, sq := t.sq, done := t.done } := by
  cases h with
  | start => rw [State.seqFlush_fillPixels]; exact seqFlushing_writes _ _ _
  | finish => rw [State.seqFlush_fillPixels]; exact seqFlushing_writes _ _ _
  | frame => rw [State.seqFlush_putGrid]; exact seqFlushing_writes _ _ _
  | resume k p =>
    obtain ⟨q, d, he⟩ := State.seqResume_frame k p.answer s
    rw [he]
  | _ => rfl

/-- A tick writes the sequencer record only (43_scroll R163). -/
theorem State.tick_writes (s : State) : s.tick = { s with sq := s.tick.sq } := by
  unfold State.tick
  split <;> rfl

/-! ### One step -/

/-- What a step that answers `t` did, with `s.scheduled rest n` the state it worked on. -/
inductive StepEffect (s : State) (rest : List Event) (n : Nat) (t : State) : Prop where
  | host (u : State) (r : BusResponse) : HostEffect (s.scheduled rest n) u → t = { u with busResp := r } → StepEffect s rest n t
  | illegal (e : Illegal) : s.pending.valid = true → s.pipe = .free → decode s.pending.word = .error e →
      t = (s.scheduled rest n).complete (.illegalCommand e) → StepEffect s rest n t
  | execute (i : Instr) : s.pending.valid = true → s.pipe = .free → s.pending.word = encode i →
      ExecResult i (s.scheduled rest n) t → StepEffect s rest n t
  | resume (p : DevReply) : s.pipe = .host → s.outcome = none → s.devAns = some p → Resumes (s.scheduled rest n) p t →
      StepEffect s rest n t
  | request : s.pipe = .host → s.outcome = none → s.devAns = none → s.flushDue = true → s.devReq = none →
      t = (s.scheduled rest n).requestFlush → StepEffect s rest n t
  | complete (r : Report) : s.pipe = .host → s.outcome = some r → t = (s.scheduled rest n).completeStep r → StepEffect s rest n t
  | seq : SeqMove (s.scheduled rest n) t → StepEffect s rest n t
  | tick : s.agenda = .tick :: rest → t = (s.scheduled rest n).tick → StepEffect s rest n t
  | answer (a : DevAnswer) (r : DevRequest) : s.agenda = .answer a :: rest → s.devReq = some r → s.pipe.makes r = true →
      t = Delivered (s.scheduled rest n) r a → StepEffect s rest n t
  | reset : s.agenda = .reset :: rest → t = (s.scheduled rest n).resetStep → StepEffect s rest n t
  | wait : t = s.scheduled rest n → StepEffect s rest n t

/-- CMDENG's execute step: an illegal word completes with ILLEGAL, any other runs its command (30_encoding R91, R92). -/
theorem execute_cases (s t : State) (h : s.execute = .next t) :
    (∃ e, decode s.pending.word = .error e ∧ t = s.complete (.illegalCommand e)) ∨
    ∃ i, s.pending.word = encode i ∧ ExecResult i s t := by
  unfold State.execute at h
  split at h
  · rename_i i hi
    exact .inr ⟨i, eq_encode_of_decode _ i hi, execResult_of_exec i s t h⟩
  · rename_i e he
    cases h
    exact .inl ⟨e, he, rfl⟩

/-- Every step that answers a state has one of the effects. -/
theorem step_effect (s t : State) (h : step s = .next t) : ∃ rest n, StepEffect s rest n t := by
  obtain ⟨rest, n, hm⟩ := step_cases s
  refine ⟨rest, n, ?_⟩
  generalize step s = o at h hm
  cases hm with
  | host a _ =>
    cases h
    obtain ⟨u, r, hu, he⟩ := hostAccess_effect a (s.scheduled rest n)
    exact .host u r hu he
  | execute hv hp =>
    rcases execute_cases _ t h with ⟨e, hd, rfl⟩ | ⟨i, hw, hx⟩
    · exact .illegal e hv hp hd rfl
    · exact .execute i hv hp hw hx
  | resume p hp ho ha =>
    cases h
    exact .resume p hp ho ha (resume_cases _ p)
  | request hp ho ha hf hd =>
    cases h
    exact .request hp ho ha hf hd rfl
  | complete r hp ho =>
    cases h
    exact .complete r hp ho rfl
  | seq u hu =>
    cases h
    exact .seq (seqNext_cases _ _ hu)
  | tick ha =>
    cases h
    exact .tick ha rfl
  | answer a r ha hr =>
    rcases answered_cases (s.scheduled rest n) r a with ⟨hk, he⟩ | ⟨-, he⟩
    · rw [he] at h
      cases h
      exact .answer a r ha hr hk rfl
    · rw [he] at h
      cases h
  | reset ha =>
    cases h
    exact .reset ha rfl
  | wait =>
    cases h
    exact .wait rfl

end Sys2Proof.Machine
end

section
/-!
SUPPORT. Who can change memory, and who can change ERR, LIFECYCLE, ROT and LOWLIGHT; then the statements about them.
-/

namespace Sys2Proof.Machine

/-! ### RESET -/

/-- Settles O48: the reset step is `State.reset` with the agenda and the ARB count kept, and every field of that state is its value. -/
theorem resetRestoresResetValues : Obligations.ResetRestoresResetValues := by
  refine ⟨fun _ => rfl, rfl, rfl, rfl, rfl, fun _ => rfl, fun _ => (by decide : (0 : Byte) ++ (0 : Byte) = (0 : Half)), ?_⟩
  exact ⟨rfl, rfl, rfl, rfl, rfl, rfl, rfl, rfl, rfl, rfl, rfl, rfl, rfl, rfl, rfl, rfl, rfl, rfl, rfl, rfl, rfl, rfl, rfl, rfl⟩

/-- Settles O49, clause by clause of `State.Safe`. -/
theorem resetStateIsSafe : Obligations.ResetStateIsSafe where
  canonical := Memory.wf_nil
  mapped := fun _ hc => absurd hc List.not_mem_nil
  handle := rfl
  latched := rfl
  registers := ⟨rfl, by decide, rfl, rfl, rfl, .inl rfl⟩
  pipeline := trivial
  sequencer := rfl

/-! ### Who changes memory -/

/-- An accepted message writes SCROLL_DONE and the sequencer record only (43_scroll R160, R161). -/
theorem State.acceptMessage_writes (cr : Bool) (len : Nat) (tc bc : Rgb) (s : State) :
    s.acceptMessage cr len tc bc =
      { s with done := (s.acceptMessage cr len tc bc).done, sq := (s.acceptMessage cr len tc bc).sq } := by
  obtain ⟨d, q, h⟩ := State.acceptMessage_frame cr len tc bc s
  rw [h]

/-- How a step that answers `t` treats memory: only HOST, a command's execute step, a step SEQ begins, and a reset can write it. -/
inductive MemoryEffect (s : State) (rest : List Event) (n : Nat) (t : State) : Prop where
  | kept : t.mem = s.mem → MemoryEffect s rest n t
  | host (u : State) : HostEffect (s.scheduled rest n) u → t.mem = u.mem → MemoryEffect s rest n t
  | execute (i : Instr) : s.pipe = .free → ExecResult i (s.scheduled rest n) t → MemoryEffect s rest n t
  | seq : SeqMove (s.scheduled rest n) t → MemoryEffect s rest n t
  | reset : s.agenda = .reset :: rest → t.mem = [] → MemoryEffect s rest n t

theorem StepEffect.memory {s t : State} {rest : List Event} {n : Nat} (h : StepEffect s rest n t) : MemoryEffect s rest n t := by
  cases h with
  | host u r hu ht => exact .host u hu (congrArg State.mem ht :)
  | execute i _ hp _ hx => exact .execute i hp hx
  | seq hq => exact .seq hq
  | reset ha ht => exact .reset ha (congrArg State.mem ht :)
  | resume p _ _ _ hr => exact .kept (by cases hr <;> rfl)
  | tick _ ht => exact .kept (congrArg State.mem (ht.trans (State.tick_writes _)) :)
  | illegal _ _ _ _ ht | request _ _ _ _ _ ht | complete _ _ _ ht | answer _ _ _ _ _ ht | wait ht =>
    exact .kept (congrArg State.mem ht :)

/-! ### Memory stays canonical -/

theorem HostEffect.wf {s t : State} (h : HostEffect s t) (hw : s.mem.wf) : t.mem.wf := by
  cases h with
  | stored o v => exact Memory.wf_writeWord _ _ _ hw
  | _ => exact hw

theorem Ending.wf {i : Instr} {s u : State} (h : Ending i s u) (hw : s.mem.wf) : u.mem.wf := by
  cases h with
  | matrix => exact State.wf_storeMatrix s hw
  | message => rw [State.acceptMessage_writes]; exact hw
  | _ => exact hw

theorem ExecResult.wf {i : Instr} {s t : State} (h : ExecResult i s t) (hw : s.mem.wf) : t.mem.wf := by
  cases h with
  | success u hu => exact hu.wf hw
  | flush ps => exact Memory.wf_setPixels _ ps hw
  | _ => exact hw

theorem SeqMove.wf {s t : State} (h : SeqMove s t) (hw : s.mem.wf) : t.mem.wf := by
  cases h with
  | start | finish =>
    rw [State.seqFlush_mem, State.fillPixels_mem]
    exact Memory.wf_setPixels _ _ hw
  | frame => exact Memory.wf_setPixels _ _ hw
  | resume k p =>
    obtain ⟨q, d, he⟩ := State.seqResume_frame k p.answer s
    rw [he]
    exact hw
  | _ => exact hw

/-- Settles O50: every write of memory goes through `Memory.writeByte`, which keeps the canonical form. -/
theorem stepKeepsMemoryCanonical : Obligations.StepKeepsMemoryCanonical := by
  intro s t hw h
  obtain ⟨rest, n, he⟩ := step_effect s t h
  cases he.memory with
  | kept hm => exact hm ▸ hw
  | host u hu hm => exact hm ▸ hu.wf hw
  | execute i _ hx => exact hx.wf hw
  | seq hq => exact hq.wf hw
  | reset _ hm => exact hm ▸ Memory.wf_nil

/-! ### The framebuffer changes only as its flush comes due -/

/-- Memories that agree on the bytes of the framebuffer hold the same pixel words (20_memory R72). -/
theorem pixel_congr (m m' : Memory) (h : ∀ a, framebufferOffset a → m'.readByte a = m.readByte a) (i : Nat) (hi : i < 64) :
    m'.pixel i = m.pixel i :=
  readHalf_congr _ _ _ (h _ (by unfold framebufferOffset fbBase; omega)) (h _ (by unfold framebufferOffset fbBase; omega))

/-- HOST's writes go to the staging memories, not to the framebuffer (20_memory R61, R65). -/
theorem HostEffect.fb {s t : State} (h : HostEffect s t) (i : Nat) (hi : i < 64) : t.mem.pixel i = s.mem.pixel i := by
  cases h with
  | stored o v _ _ ho =>
    refine pixel_congr _ _ (fun a ha => Memory.readByte_writeWord_other _ _ _ _ ?_) i hi
    unfold framebufferOffset at ha
    omega
  | _ => rfl

theorem Ending.fb {i : Instr} {s u : State} (h : Ending i s u) (j : Nat) (hj : j < 64) : u.mem.pixel j = s.mem.pixel j := by
  cases h with
  | matrix =>
    refine pixel_congr _ _ (fun a ha => State.readByte_storeMatrix s a ?_) j hj
    unfold framebufferOffset at ha
    omega
  | message => rw [State.acceptMessage_writes]
  | _ => rfl

/-- A command that changes the framebuffer keeps PIPE, with its flush due and not yet requested (20_memory R78, R80). -/
theorem ExecResult.fb {i : Instr} {s t : State} (h : ExecResult i s t) :
    (∀ j < 64, t.mem.pixel j = s.mem.pixel j) ∨ (t.pipe = .host ∧ t.flushDue = true ∧ t.devReq = s.devReq) := by
  cases h with
  | success u hu => exact .inl hu.fb
  | flush => exact .inr ⟨rfl, rfl, rfl⟩
  | _ => exact .inl fun _ _ => rfl

/-- So does a step of SEQ, which begins with PIPE free (43_scroll R164, R166, R169). -/
theorem SeqMove.fb {s t : State} (h : SeqMove s t) :
    t.mem = s.mem ∨ (s.pipe = .free ∧ (∃ k, t.pipe = .seq k) ∧ t.flushDue = true ∧ t.devReq = s.devReq) := by
  cases h with
  | start _ _ hp | finish _ hp => exact .inr ⟨hp, ⟨_, rfl⟩, rfl, by rw [State.seqFlush_devReq, State.fillPixels_devReq]⟩
  | frame _ _ _ hp => exact .inr ⟨hp, ⟨_, rfl⟩, rfl, rfl⟩
  | resume k p =>
    obtain ⟨q, d, he⟩ := State.seqResume_frame k p.answer s
    exact .inl (congrArg State.mem he :)
  | _ => exact .inl rfl

/-- Settles O57, by who can write memory. -/
theorem framebufferChangesOnlyAsFlushComesDue : Obligations.FramebufferChangesOnlyAsFlushComesDue := by
  rintro s t h ⟨j, hj, hne⟩
  obtain ⟨rest, n, he⟩ := step_effect s t h
  cases he.memory with
  | kept hm => exact absurd (congrArg (·.pixel j) hm) hne
  | host u hu hm => exact absurd ((congrArg (·.pixel j) hm).trans (hu.fb j hj)) hne
  | execute i hp hx =>
    rcases hx.fb with hsame | ⟨ht, hf, hd⟩
    · exact absurd (hsame j hj) hne
    · exact .inl ⟨hp, by rw [ht]; exact nofun, hf, hd⟩
  | seq hq =>
    rcases hq.fb with hm | ⟨hp, ⟨k, ht⟩, hf, hd⟩
    · exact absurd (congrArg (·.pixel j) hm) hne
    · exact .inl ⟨hp, by rw [ht]; exact nofun, hf, hd⟩
  | reset ha => exact .inr ⟨rest, ha⟩

/-! ### Commands read their operands and do not write them -/

/-- A command's memory writes are FB's and MRESULT's bytes (42_display_pixels R137, R145). -/
theorem ExecResult.readByte {i : Instr} {s t : State} (h : ExecResult i s t) (a : Nat)
    (ha : (0x200 ≤ a ∧ a < 0x400) ∨ 0x500 ≤ a) : t.mem.readByte a = s.mem.readByte a := by
  cases h with
  | success u hu =>
    cases hu with
    | matrix => exact State.readByte_storeMatrix s a (by omega)
    | message len tc bc => exact congrArg (fun u => u.mem.readByte a) (State.acceptMessage_writes Config.cancelReports len tc bc s)
    | _ => rfl
  | flush ps _ hps => exact sameOutside_setPixels _ ps hps a (by unfold framebufferOffset; omega)
  | _ => rfl

/-- Settles O55, by the shapes in which a command leaves the machine. -/
theorem commandsNeverWriteOperands : Obligations.CommandsNeverWriteOperands := by
  intro i s t h
  have hx := execResult_of_exec i s t h
  have hw := hx.writes
  exact ⟨(congrArg State.regs hw :), (congrArg State.cmd hw :), (congrArg State.haz hw :), (congrArg State.devOpen hw :),
    (congrArg State.lifecycle hw :), hx.readByte⟩

/-! ### Who changes ERR, LIFECYCLE, ROT and LOWLIGHT -/

/-- ERR, LIFECYCLE, ROT and LOWLIGHT are the same. -/
structure SameRecord (s t : State) : Prop where
  err : t.err = s.err
  lifecycle : t.lifecycle = s.lifecycle
  rot : t.rot = s.rot
  lowlight : t.lowlight = s.lowlight

theorem SameRecord.of_eq {s t u : State} (h : t = u) (hs : SameRecord s u) : SameRecord s t := by
  subst h
  exact hs

/-- How a step that answers `t` treats ERR, LIFECYCLE, ROT and LOWLIGHT: only CMDENG and a reset can write them. -/
inductive RecordEffect (s : State) (rest : List Event) (n : Nat) (t : State) : Prop where
  | kept : SameRecord s t → RecordEffect s rest n t
  | illegal (e : Illegal) : s.pending.valid = true → s.pipe = .free → t = (s.scheduled rest n).complete (.illegalCommand e) →
      RecordEffect s rest n t
  | execute (i : Instr) : s.pending.valid = true → s.pipe = .free → s.pending.word = encode i →
      ExecResult i (s.scheduled rest n) t → RecordEffect s rest n t
  | resume (p : DevReply) : s.pipe = .host → s.devAns = some p → Resumes (s.scheduled rest n) p t → RecordEffect s rest n t
  | complete (r : Report) : s.pipe = .host → s.outcome = some r → t = (s.scheduled rest n).completeStep r → RecordEffect s rest n t
  | reset : s.agenda = .reset :: rest → t = (s.scheduled rest n).resetStep → RecordEffect s rest n t

theorem StepEffect.record {s t : State} {rest : List Event} {n : Nat} (h : StepEffect s rest n t) : RecordEffect s rest n t := by
  cases h with
  | illegal e hv hp _ ht => exact .illegal e hv hp ht
  | execute i hv hp hw hx => exact .execute i hv hp hw hx
  | resume p hp _ ha hr => exact .resume p hp ha hr
  | complete r hp ho ht => exact .complete r hp ho ht
  | reset ha ht => exact .reset ha ht
  | host u r hu ht =>
    have hk : SameRecord s u := .of_eq hu.writes ⟨rfl, rfl, rfl, rfl⟩
    exact .kept (.of_eq ht ⟨hk.err, hk.lifecycle, hk.rot, hk.lowlight⟩)
  | seq hq =>
    exact .kept (.of_eq hq.writes ⟨rfl, rfl, rfl, rfl⟩)
  | tick _ ht =>
    exact .kept (.of_eq (ht.trans (State.tick_writes _)) ⟨rfl, rfl, rfl, rfl⟩)
  | request _ _ _ _ _ ht | answer _ _ _ _ _ ht | wait ht =>
    exact .kept (.of_eq ht ⟨rfl, rfl, rfl, rfl⟩)

/-- The command is no longer pending once it has executed (30_encoding R91 step 2). -/
theorem ExecResult.pending_valid {i : Instr} {s t : State} (h : ExecResult i s t) : t.pending.valid = false := by
  cases h <;> rfl

/-- Only a command that completes in its execute step writes ERR in it (60_exceptions R185). -/
theorem ExecResult.err {i : Instr} {s t : State} (h : ExecResult i s t) : t.err = s.err ∨ t.pipe = .free := by
  cases h with
  | error | success => exact .inr rfl
  | flush | opening | closing => exact .inl rfl

/-- Only SETROT writes ROT, and only SETLOWLIGHT writes LOWLIGHT (10_state R44, R45). -/
theorem Ending.configuration {i : Instr} {s u : State} (h : Ending i s u) :
    (u.rot = s.rot ∨ i = .setrot) ∧ (u.lowlight = s.lowlight ∨ i = .setlowlight) := by
  cases h with
  | rotation k hi => exact ⟨.inr hi, .inl rfl⟩
  | lowlight b hi => exact ⟨.inl rfl, .inr hi⟩
  | message len tc bc =>
    have hw := State.acceptMessage_writes Config.cancelReports len tc bc s
    exact ⟨.inl (congrArg State.rot hw :), .inl (congrArg State.lowlight hw :)⟩
  | _ => exact ⟨.inl rfl, .inl rfl⟩

theorem ExecResult.configuration {i : Instr} {s t : State} (h : ExecResult i s t) :
    (t.rot = s.rot ∨ i = .setrot) ∧ (t.lowlight = s.lowlight ∨ i = .setlowlight) := by
  cases h with
  | success u hu => exact hu.configuration
  | _ => exact ⟨.inl rfl, .inl rfl⟩

/-- A safe pipeline with an answer for HOST to take up: the request was made in the lifecycle state that it needs. -/
theorem fromHost_of_answer {s : State} {p : DevReply} (h : s.PipelineSound) (hp : s.pipe = .host) (ha : s.devAns = some p) :
    p.request.FromHost s := by
  cases h.stage with
  | answered q _ _ _ hq _ _ hf => exact Option.some.inj (ha.symm.trans hq) ▸ hf
  | _ => simp_all

/-- Settles O53: of the agents only CMDENG and RESET can write LIFECYCLE, and CMDENG does so only as it takes up an answer. -/
theorem lifecycleMovesOnlyForward : Obligations.LifecycleMovesOnlyForward := by
  intro s t hs h
  obtain ⟨rest, n, he⟩ := step_effect s t h
  cases he.record with
  | kept hk => exact .inl hk.lifecycle
  | illegal e _ _ ht => exact .inl (congrArg State.lifecycle ht :)
  | execute i _ _ _ hx => exact .inl (congrArg State.lifecycle hx.writes :)
  | complete r _ _ ht => exact .inl (congrArg State.lifecycle ht :)
  | reset ha ht => exact .inr (.inr (.inr ⟨congrArg State.lifecycle ht, rest, ha⟩))
  | resume p hp ha hr =>
    have hf := fromHost_of_answer hs.pipeline hp ha
    cases hr with
    | opened => exact .inr (.inl ⟨hf, rfl, hp, ha, rfl, rfl⟩)
    | closed a => exact .inr (.inr (.inl ⟨hf, rfl, hp, a, ha, rfl, rfl⟩))
    | notOpened | flushed => exact .inl rfl

/-- Settles O54: of the commands only SETROT writes ROT and only SETLOWLIGHT writes LOWLIGHT, and no other step does. -/
theorem onlyConfigurationCommandsConfigure : Obligations.OnlyConfigurationCommandsConfigure := by
  intro s t h hreset
  obtain ⟨rest, n, he⟩ := step_effect s t h
  cases he.record with
  | kept hk => exact ⟨fun hne => absurd hk.rot hne, fun hne => absurd hk.lowlight hne⟩
  | illegal e _ _ ht | complete r _ _ ht =>
    exact ⟨fun hne => absurd (congrArg State.rot ht :) hne, fun hne => absurd (congrArg State.lowlight ht :) hne⟩
  | resume p _ _ hr => cases hr <;> exact ⟨fun hne => absurd rfl hne, fun hne => absurd rfl hne⟩
  | reset ha => exact absurd ha (hreset rest)
  | execute i hv hp hw hx =>
    obtain ⟨hrot, hlow⟩ := hx.configuration
    refine ⟨fun hne => ?_, fun hne => ?_⟩
    · cases hrot.resolve_left hne
      exact ⟨hv, hp, hw, hx.pending_valid⟩
    · cases hlow.resolve_left hne
      exact ⟨hv, hp, hw, hx.pending_valid⟩

/-- Settles O59: ERR is written by `State.complete` alone, in a command's execute step or in its complete step, and by RESET. -/
theorem errIsWrittenOnlyByHostCommands : Obligations.ErrIsWrittenOnlyByHostCommands := by
  intro s t h hne
  obtain ⟨rest, n, he⟩ := step_effect s t h
  cases he.record with
  | kept hk => exact absurd hk.err hne
  | illegal e hv hp ht =>
    subst ht
    exact .inl ⟨hv, hp, rfl, rfl⟩
  | execute i hv hp _ hx => exact .inl ⟨hv, hp, hx.pending_valid, hx.err.resolve_left hne⟩
  | resume p _ _ hr => exact absurd (by cases hr <;> rfl) hne
  | complete r hp ho ht =>
    subst ht
    exact .inr (.inl ⟨hp, rfl, r, ho, rfl, rfl⟩)
  | reset ha => exact .inr (.inr ⟨rest, ha⟩)

end Sys2Proof.Machine
end

section
/-!
SUPPORT. The unspecified payload fields (10_state R49) influence nothing else. `State.maskUnspecified` blanks them, and every agent's move
is shown to commute with it: from the masked state the move leaves what it leaves from the state itself, up to masking.
-/

namespace Sys2Proof.Machine

/-! ### Masking -/

/-- An outcome, its next state masked. -/
def maskOut : Out → Out
  | .next t => .next t.maskUnspecified
  | .fault r => .fault r
  | .refused r => .refused r

/-- The pending request is specified while REQ.valid is 1. -/
theorem mask_req (s : State) (h : s.sq.reqValid = true) : s.maskUnspecified.sq.req = s.sq.req := if_pos h

/-- The running call is specified in RUN and in FINISH. -/
theorem mask_cur (s : State) (h : s.sq.phase = .run ∨ s.sq.phase = .finish) : s.maskUnspecified.sq.cur = s.sq.cur := if_pos h

@[simp] theorem mask_regs (s : State) : s.maskUnspecified.regs = s.regs := rfl
@[simp] theorem mask_mem (s : State) : s.maskUnspecified.mem = s.mem := rfl
@[simp] theorem mask_lifecycle (s : State) : s.maskUnspecified.lifecycle = s.lifecycle := rfl
@[simp] theorem mask_pending (s : State) : s.maskUnspecified.pending = s.pending := rfl
@[simp] theorem mask_pipe (s : State) : s.maskUnspecified.pipe = s.pipe := rfl
@[simp] theorem mask_devReq (s : State) : s.maskUnspecified.devReq = s.devReq := rfl
@[simp] theorem mask_devAns (s : State) : s.maskUnspecified.devAns = s.devAns := rfl
@[simp] theorem mask_outcome (s : State) : s.maskUnspecified.outcome = s.outcome := rfl
@[simp] theorem mask_agenda (s : State) : s.maskUnspecified.agenda = s.agenda := rfl
@[simp] theorem mask_arbCount (s : State) : s.maskUnspecified.arbCount = s.arbCount := rfl
@[simp] theorem mask_phase (s : State) : s.maskUnspecified.sq.phase = s.sq.phase := rfl

/-- Masking forgets REQ unless REQ.valid is 1, and CUR outside RUN and FINISH: other payloads in their place mask alike. -/
theorem mask_payload (s : State) (r c : ScrollCall) (hr : s.sq.reqValid = true → r = s.sq.req)
    (hc : s.sq.phase = .run ∨ s.sq.phase = .finish → c = s.sq.cur) :
    State.maskUnspecified { s with sq := { s.sq with req := r, cur := c } } = s.maskUnspecified := by
  have hreq : (if s.sq.reqValid then r else .blank) = if s.sq.reqValid then s.sq.req else .blank := by
    split
    · exact hr ‹_›
    · rfl
  have hcur : (if s.sq.phase = .run ∨ s.sq.phase = .finish then c else .blank) =
      if s.sq.phase = .run ∨ s.sq.phase = .finish then s.sq.cur else .blank := by
    split
    · exact hc ‹_›
    · rfl
  exact congrArg₂ (fun r c => { s with sq := { s.sq with req := r, cur := c } }) hreq hcur

theorem mask_mask (s : State) : s.maskUnspecified.maskUnspecified = s.maskUnspecified :=
  mask_payload s _ _ (mask_req s) (mask_cur s)

theorem maskOut_maskOut (o : Out) : maskOut (maskOut o) = maskOut o := by
  cases o with
  | next t => exact congrArg Host.Outcome.next (mask_mask t)
  | fault r => rfl
  | refused r => rfl

/-! ### Commands -/

/-- The gate reads LIFECYCLE only. -/
theorem gated_mask (s : State) (o o' : Out) (h : o' = maskOut o) : gated s.maskUnspecified o' = maskOut (gated s o) := by
  subst h
  by_cases hl : s.lifecycle = .ready
  · rw [gated_ready s _ hl, gated_ready s.maskUnspecified _ hl]
  · rw [gated_not_ready s _ hl, gated_not_ready s.maskUnspecified _ hl]
    rfl

/-- No command but SHOWMSG reads or writes the sequencer record. -/
theorem exec_mask (i : Instr) (s : State) (h : i ≠ .showmsg) : exec i s.maskUnspecified = maskOut (exec i s) := by
  cases i with
  | nop | unpack => rfl
  | init | close | pack | hex2rgb | rgb2hex =>
    simp only [exec, execInit, execClose, execPack, execHex2rgb, execRgb2hex, mask_regs, mask_lifecycle]
    split <;> rfl
  | setlowlight | clear | getmatrix | fliph | flipv => exact gated_mask s _ _ rfl
  | setrot | getpix | fill =>
    refine gated_mask s _ _ ?_
    simp only [mask_regs]
    split <;> rfl
  | setpix =>
    refine gated_mask s _ _ ?_
    simp only [mask_regs]
    split
    · rfl
    · split <;> rfl
  | setpixs =>
    refine gated_mask s _ _ ?_
    by_cases hn : batchCount s.regs.arg > Config.batchMax
    · simp only [mask_regs, hn, ↓reduceIte]
      rfl
    · simp only [mask_regs, mask_mem, hn, ↓reduceIte]
      split <;> rfl
  | setmatrix =>
    refine gated_mask s _ _ ?_
    by_cases hs : shapeValid s.regs.mshape s.regs.rowlen = true
    · simp only [mask_regs, mask_mem, hs, ↓reduceIte]
      split <;> rfl
    · simp only [mask_regs, hs]
      rfl
  | showmsg => exact absurd rfl h

/-- A new request replaces REQ whole, and CUR.tag is not read with CANCEL_REPORTS false (43_scroll R161, R162). -/
theorem offer_mask (r : ScrollCall) (s : State) :
    (s.maskUnspecified.offer false r).maskUnspecified = (s.offer false r).maskUnspecified := by
  cases h : s.sq.phase <;> simp [State.offer, State.abandon, State.maskUnspecified, h]

/-- The call an accepted message makes (43_scroll R155, R159, R160). -/
def State.messageCall (len : Nat) (tc bc : Rgb) (s : State) : ScrollCall :=
  { text := filterText (textBytes s.mem len), n := BitVec.ofNat 9 (filterText (textBytes s.mem len)).length, tcolor := tc, bcolor := bc
    interval := scrollInterval s.regs.speed, tag := s.sq.nextTag }

/-- A tag has been given to a message (43_scroll R160). -/
def State.tagged (s : State) : State := { s with sq := { s.sq with lastTag := s.sq.nextTag } }

theorem acceptMessage_of_empty (cr : Bool) (len : Nat) (tc bc : Rgb) (s : State) (h : filterText (textBytes s.mem len) = []) :
    s.acceptMessage cr len tc bc = s.tagged.post s.sq.nextTag .ok 0 := if_pos h

theorem acceptMessage_of_text (cr : Bool) (len : Nat) (tc bc : Rgb) (s : State) (h : filterText (textBytes s.mem len) ≠ []) :
    s.acceptMessage cr len tc bc = s.tagged.offer cr (s.messageCall len tc bc) := if_neg h

theorem acceptMessage_mask (len : Nat) (tc bc : Rgb) (s : State) :
    (s.maskUnspecified.acceptMessage false len tc bc).maskUnspecified = (s.acceptMessage false len tc bc).maskUnspecified := by
  by_cases h : filterText (textBytes s.mem len) = []
  · rw [acceptMessage_of_empty _ _ _ _ s h, acceptMessage_of_empty _ _ _ _ s.maskUnspecified h]
    exact congrArg (State.post s.sq.nextTag .ok 0) (mask_mask s.tagged)
  · rw [acceptMessage_of_text _ _ _ _ s h, acceptMessage_of_text _ _ _ _ s.maskUnspecified h]
    exact offer_mask (s.messageCall len tc bc) s.tagged

/-- SHOWMSG leaves the same, up to masking. -/
theorem execShowmsg_mask (s : State) : maskOut (execShowmsg s.maskUnspecified) = maskOut (execShowmsg s) := by
  unfold execShowmsg
  by_cases hn : textLength s.regs.textlen > Config.textMax
  · simp only [mask_regs, hn, ↓reduceIte]
    exact maskOut_maskOut (s.finishWith (.validation .length 0))
  · simp only [mask_regs, hn, ↓reduceIte]
    split
    · exact maskOut_maskOut (s.finishWith (.validation .color 0))
    · split
      · exact maskOut_maskOut (s.finishWith (.validation .color 1))
      · exact congrArg (fun u => Host.Outcome.next (State.complete .success u)) (acceptMessage_mask _ _ _ s)

/-! ### HOST, DEVICE and TIMEBASE -/

/-- SCROLL_STATUS shows CUR.tag in RUN and FINISH only (10_state R50). -/
theorem scrollStatusWord_mask (s : State) : s.maskUnspecified.scrollStatusWord = s.scrollStatusWord := by
  cases h : s.sq.phase <;> simp [State.scrollStatusWord, Sequencer.activeTag, State.maskUnspecified, h]

theorem readLocation_mask (o : Nat) (s : State) : s.maskUnspecified.readLocation o = s.readLocation o := by
  unfold State.readLocation
  split
  · rename_i r _
    cases r with
    | scrollStatus => exact congrArg some (scrollStatusWord_mask s)
    | _ => rfl
  all_goals rfl

theorem interlocked_mask (w : State → State) (s : State) (h : w s.maskUnspecified = (w s).maskUnspecified) :
    s.maskUnspecified.interlocked w = (s.interlocked w).maskUnspecified := by
  have hb : s.maskUnspecified.cmdBusy = s.cmdBusy := rfl
  unfold State.interlocked
  rw [hb]
  split
  · rfl
  · exact h

theorem writeLocation_mask (o : Nat) (v : Word) (s : State) :
    s.maskUnspecified.writeLocation o v = (s.writeLocation o v).map State.maskUnspecified := by
  unfold State.writeLocation
  split
  -- CMD, the operand registers and the staging memories are behind the busy interlock
  case h_2 | h_5 | h_7 | h_9 | h_10 => exact congrArg some (interlocked_mask _ s rfl)
  all_goals rfl

theorem hostAccess_mask (a : BusAccess) (s : State) : s.maskUnspecified.hostAccess a = (s.hostAccess a).maskUnspecified := by
  cases a with
  | read o n =>
    have hr : s.maskUnspecified.hostRead o n = s.hostRead o n := by
      unfold State.hostRead
      rw [readLocation_mask]
    unfold State.hostAccess
    simp only [hr]
    rfl
  | write o n v =>
    simp only [State.hostAccess, State.hostWrite, writeLocation_mask]
    split
    · cases s.writeLocation o.toNat v <;> rfl
    · rfl

theorem Sequencer.runTick_of_due (q : Sequencer) (h : q.tcount + 1 = q.cur.interval) :
    q.runTick = { q with tcount := 0, tickPending := true } := if_pos h

theorem Sequencer.runTick_of_not_due (q : Sequencer) (h : q.tcount + 1 ≠ q.cur.interval) :
    q.runTick = { q with tcount := q.tcount + 1 } := if_neg h

theorem Sequencer.settleTick_of_over (q : Sequencer) (h : q.settleCnt - 1 = 0) :
    q.settleTick = { q with settleCnt := 0, phase := .start } := if_pos h

theorem Sequencer.settleTick_of_not_over (q : Sequencer) (h : q.settleCnt - 1 ≠ 0) :
    q.settleTick = { q with settleCnt := q.settleCnt - 1 } := if_neg h

theorem State.tick_of_run (s : State) (h : s.sq.phase = .run) : s.tick = { s with sq := s.sq.runTick } := by
  unfold State.tick
  rw [h]

theorem State.tick_of_settle (s : State) (h : s.sq.phase = .settle) : s.tick = { s with sq := s.sq.settleTick } := by
  unfold State.tick
  rw [h]

theorem State.tick_of_other (s : State) (h : s.sq.phase ≠ .run) (h' : s.sq.phase ≠ .settle) : s.tick = s := by
  unfold State.tick
  split <;> simp_all

/-- RUN counts with CUR.interval, which is specified in RUN (43_scroll R163). -/
theorem tick_mask (s : State) : s.maskUnspecified.tick.maskUnspecified = s.tick.maskUnspecified := by
  cases hp : s.sq.phase with
  | run =>
    have hc := mask_cur s (.inl hp)
    rw [State.tick_of_run s hp, State.tick_of_run s.maskUnspecified hp]
    by_cases h : s.sq.tcount + 1 = s.sq.cur.interval
    · rw [Sequencer.runTick_of_due s.sq h, Sequencer.runTick_of_due s.maskUnspecified.sq (by rw [hc]; exact h)]
      exact mask_payload { s with sq := { s.sq with tcount := 0, tickPending := true } } _ _ (mask_req s) (mask_cur s)
    · rw [Sequencer.runTick_of_not_due s.sq h, Sequencer.runTick_of_not_due s.maskUnspecified.sq (by rw [hc]; exact h)]
      exact mask_payload { s with sq := { s.sq with tcount := s.sq.tcount + 1 } } _ _ (mask_req s) (mask_cur s)
  | settle =>
    rw [State.tick_of_settle s hp, State.tick_of_settle s.maskUnspecified hp]
    by_cases h : s.sq.settleCnt - 1 = 0
    · rw [Sequencer.settleTick_of_over s.sq h, Sequencer.settleTick_of_over s.maskUnspecified.sq h]
      exact mask_payload { s with sq := { s.sq with settleCnt := 0, phase := .start } } _ _ (mask_req s) (by simp)
    · rw [Sequencer.settleTick_of_not_over s.sq h, Sequencer.settleTick_of_not_over s.maskUnspecified.sq h]
      exact mask_payload { s with sq := { s.sq with settleCnt := s.sq.settleCnt - 1 } } _ _ (mask_req s) (mask_cur s)
  | idle | start | finish =>
    have h : s.sq.phase ≠ .run ∧ s.sq.phase ≠ .settle := by simp [hp]
    rw [State.tick_of_other s h.1 h.2, State.tick_of_other s.maskUnspecified h.1 h.2, mask_mask]

theorem answered_mask (r : DevRequest) (a : DevAnswer) (s : State) : s.maskUnspecified.answered r a = maskOut (s.answered r a) := by
  unfold State.answered
  by_cases hk : s.pipe.makes r = true
  · rw [if_pos hk, if_pos (show s.maskUnspecified.pipe.makes r = true from hk)]
    rfl
  · rw [if_neg hk, if_neg (show ¬ s.maskUnspecified.pipe.makes r = true from hk)]
    rfl

/-- DEVICE answers the owner of PIPE, whatever the payloads. -/
theorem deviceAnswer_mask (a : DevAnswer) (s : State) : s.maskUnspecified.deviceAnswer a = maskOut (s.deviceAnswer a) := by
  unfold State.deviceAnswer
  simp only [mask_devReq]
  split
  · rfl
  · exact answered_mask _ a s

/-! ### SEQ -/

/-- A call that ends while it waits is a valid request, so its tag is specified (43_scroll R164). -/
theorem endRequest_mask (code : ErrCode) (cause : Byte) (s : State) (hv : s.sq.reqValid = true) :
    (s.maskUnspecified.endRequest code cause).maskUnspecified = (s.endRequest code cause).maskUnspecified := by
  rw [State.endRequest_eq, State.endRequest_eq, mask_req s hv]
  rfl

/-- A call that ends while it runs has its tag specified (43_scroll R166). -/
theorem endRunning_mask (code : ErrCode) (cause : Byte) (s : State) (hp : s.sq.phase = .run) :
    (s.maskUnspecified.endRunning code cause).maskUnspecified = (s.endRunning code cause).maskUnspecified := by
  rw [State.endRunning_eq, State.endRunning_eq, mask_cur s (.inl hp), ← State.endRunning_eq]
  exact mask_payload (s.endRunning code cause) _ _ (mask_req s) (by simp [State.endRunning_eq])

/-- FINISH ends a call whose tag is specified (43_scroll R169). -/
theorem endFinish_mask (code : ErrCode) (cause : Byte) (s : State) (hp : s.sq.phase = .finish) :
    (s.maskUnspecified.endFinish code cause).maskUnspecified = (s.endFinish code cause).maskUnspecified := by
  rw [State.endFinish_eq, State.endFinish_eq, mask_cur s (.inr hp), ← State.endFinish_eq]
  exact mask_payload (s.endFinish code cause) _ _ (mask_req s) fun _ => mask_cur s (.inr hp)

theorem seqFlushing_mask (k : SeqKind) (s : State) (m : Memory) :
    SeqFlushing k s.maskUnspecified m = (SeqFlushing k s m).maskUnspecified := rfl

/-- A clear of SEQ reads no payload. -/
theorem clear_mask (k : SeqKind) (s : State) :
    ((s.maskUnspecified.fillPixels 0).seqFlush k).maskUnspecified = ((s.fillPixels 0).seqFlush k).maskUnspecified := by
  rw [State.seqFlush_fillPixels, State.seqFlush_fillPixels, mask_mem, seqFlushing_mask, mask_mask]

theorem startOp_of_ready (s : State) (h : s.lifecycle = .ready) : s.startOp = (s.fillPixels 0).seqFlush .start :=
  if_neg (not_not.mpr h)

theorem startOp_of_not_ready (s : State) (h : s.lifecycle ≠ .ready) : s.startOp = s.endRequest .state (lcause s.lifecycle) :=
  if_pos h

theorem startOp_mask (s : State) (hv : s.sq.reqValid = true) :
    s.maskUnspecified.startOp.maskUnspecified = s.startOp.maskUnspecified := by
  by_cases hl : s.lifecycle = .ready
  · rw [startOp_of_ready s hl, startOp_of_ready s.maskUnspecified hl, clear_mask]
  · rw [startOp_of_not_ready s hl, startOp_of_not_ready s.maskUnspecified hl, mask_lifecycle, endRequest_mask _ _ s hv]

theorem finishOp_of_ready (s : State) (h : s.lifecycle = .ready) : s.finishOp = (s.fillPixels 0).seqFlush .finish :=
  if_neg (not_not.mpr h)

theorem finishOp_of_not_ready (s : State) (h : s.lifecycle ≠ .ready) : s.finishOp = s.endFinish .state (lcause s.lifecycle) :=
  if_pos h

theorem finishOp_mask (s : State) (hp : s.sq.phase = .finish) :
    s.maskUnspecified.finishOp.maskUnspecified = s.finishOp.maskUnspecified := by
  by_cases hl : s.lifecycle = .ready
  · rw [finishOp_of_ready s hl, finishOp_of_ready s.maskUnspecified hl, clear_mask]
  · rw [finishOp_of_not_ready s hl, finishOp_of_not_ready s.maskUnspecified hl, mask_lifecycle, endFinish_mask _ _ s hp]

/-- FRAME begins: TICK_PENDING is cleared, also when the gate fails (43_scroll R166). -/
def State.frameBegun (s : State) : State := { s with sq := { s.sq with tickPending := false } }

theorem frameOp_of_ready (s : State) (h : s.lifecycle = .ready) :
    s.frameOp = (s.frameBegun.putGrid (frameColor Config.font s.sq.cur s.sq.offset.toNat)).seqFlush .frame :=
  if_neg (not_not.mpr h)

theorem frameOp_of_not_ready (s : State) (h : s.lifecycle ≠ .ready) :
    s.frameOp = s.frameBegun.endRunning .state (lcause s.lifecycle) :=
  if_pos h

theorem frameBegun_mask (s : State) : s.maskUnspecified.frameBegun = s.frameBegun.maskUnspecified := rfl

/-- FRAME shows the running call, which is specified in RUN (43_scroll R166). -/
theorem frameOp_mask (s : State) (hp : s.sq.phase = .run) :
    s.maskUnspecified.frameOp.maskUnspecified = s.frameOp.maskUnspecified := by
  by_cases hl : s.lifecycle = .ready
  · rw [frameOp_of_ready s hl, frameOp_of_ready s.maskUnspecified hl, mask_cur s (.inl hp), State.seqFlush_putGrid,
      State.seqFlush_putGrid, frameBegun_mask, seqFlushing_mask, mask_mask]
    rfl
  · rw [frameOp_of_not_ready s hl, frameOp_of_not_ready s.maskUnspecified hl, mask_lifecycle, frameBegun_mask,
      endRunning_mask _ _ s.frameBegun hp]

theorem takeStep_mask (s : State) (hp : s.sq.phase = .run) :
    s.maskUnspecified.takeStep.maskUnspecified = s.takeStep.maskUnspecified :=
  mask_payload s.takeStep _ _ (mask_req s) fun _ => mask_cur s (.inl hp)

/-- In START the request is valid (43_scroll R161, R169). -/
theorem reqValid_of_start (q : Sequencer) (hq : q.Sound) (hp : q.phase = .start) : q.reqValid = true := by
  unfold Sequencer.Sound at hq
  rw [hp] at hq
  exact hq.1

/-- START's request becomes the running call (43_scroll R164). -/
theorem seqResume_start_ok (s : State) :
    s.seqResume .start .ok =
      { s with
        devAns := none
        sq := { s.sq with
          cur := s.sq.req, tw := bitmapWidth s.sq.req.n, offset := 0, reqValid := false, tcount := 0, tickPending := false, phase := .run }
        pipe := .free } := rfl

/-- The end of a SEQ operation that waited for DEVICE: START's request is valid, FRAME's and FINISH's call is specified
(43_scroll R164, R166, R169). -/
theorem seqResume_mask (k : SeqKind) (a : DevAnswer) (s : State) (hk : k.Stands s) (hq : s.sq.Sound) :
    (s.maskUnspecified.seqResume k a).maskUnspecified = (s.seqResume k a).maskUnspecified := by
  obtain ⟨-, hp⟩ := hk
  cases k with
  | start =>
    have hv : s.sq.reqValid = true := reqValid_of_start s.sq hq hp
    cases a with
    | ok =>
      rw [seqResume_start_ok, seqResume_start_ok, mask_req s hv, ← seqResume_start_ok]
      exact mask_payload (s.seqResume .start .ok) _ _ (by simp [seqResume_start_ok]) fun _ => rfl
    | fail c => exact endRequest_mask .deviceIo c { s with devAns := none } hv
  | frame =>
    cases a with
    | ok => exact mask_payload (s.seqResume .frame .ok) _ _ (mask_req s) (mask_cur s)
    | fail c => exact endRunning_mask .deviceIo c { s with devAns := none } hp.1
  | finish =>
    cases a with
    | ok => exact endFinish_mask .ok 0 { s with devAns := none } hp
    | fail c => exact endFinish_mask .deviceIo c { s with devAns := none } hp

/-- Two choices under one condition agree under `f` when their branches do. -/
theorem map_ite_congr {α β : Type} {f : α → β} {c : Prop} {i j : Decidable c} {x y x' y' : Option α}
    (hx : c → x'.map f = x.map f) (hy : ¬ c → y'.map f = y.map f) : (@ite _ c j x' y').map f = (@ite _ c i x y).map f := by
  by_cases h : c
  · rw [if_pos h, if_pos h, hx h]
  · rw [if_neg h, if_neg h, hy h]

/-- Options that agree under `f` are both empty, or hold values that agree. -/
theorem map_eq_cases {α β : Type} {f : α → β} {x y : Option α} (h : x.map f = y.map f) :
    (x = none ∧ y = none) ∨ ∃ a b, x = some a ∧ y = some b ∧ f a = f b := by
  cases x <;> cases y <;> simp_all

/-- The step that SEQ can begin, up to masking. -/
theorem seqBegin_mask (s : State) :
    s.maskUnspecified.seqBegin.map State.maskUnspecified = s.seqBegin.map State.maskUnspecified := by
  unfold State.seqBegin
  cases hp : s.sq.phase with
  | start =>
    simp only [mask_phase, hp]
    exact map_ite_congr (fun h => congrArg some (startOp_mask s h.1)) fun _ => rfl
  | run =>
    simp only [mask_phase, hp]
    refine map_ite_congr (fun _ => map_ite_congr (fun _ => map_ite_congr (fun _ => ?_) fun _ => rfl) fun _ => ?_) fun _ => rfl
    · exact congrArg some (frameOp_mask s hp)
    · exact congrArg some (takeStep_mask s hp)
  | finish =>
    simp only [mask_phase, hp]
    exact map_ite_congr (fun _ => congrArg some (finishOp_mask s hp)) fun _ => rfl
  | idle | settle => simp only [mask_phase, hp]

theorem flushNext_mask (s : State) :
    s.maskUnspecified.flushNext.map State.maskUnspecified = s.flushNext.map State.maskUnspecified := by
  unfold State.flushNext
  exact map_ite_congr (fun _ => congrArg some (mask_mask s.requestFlush)) fun _ => rfl

/-- A safe pipeline with an answer for SEQ to take up: the machine stands as the operation left it. -/
theorem stands_of_answer {s : State} {k : SeqKind} {p : DevReply} (h : s.PipelineSound) (hp : s.pipe = .seq k)
    (ha : s.devAns = some p) : k.Stands s := by
  cases h.stage with
  | seqAnswered j q hj _ _ _ _ _ hs => exact Pipe.seq.inj (hp.symm.trans hj) ▸ hs
  | _ => simp_all

/-- The step that SEQ is ready to make, up to masking. -/
theorem seqNext_mask (s : State) (hk : ∀ k p, s.pipe = .seq k → s.devAns = some p → k.Stands s) (hq : s.sq.Sound) :
    s.maskUnspecified.seqNext.map State.maskUnspecified = s.seqNext.map State.maskUnspecified := by
  unfold State.seqNext
  simp only [mask_pipe, mask_devAns]
  split
  · rename_i k p hp ha
    exact congrArg some (seqResume_mask k p.answer s (hk k p hp ha) hq)
  · rcases map_eq_cases (flushNext_mask s) with ⟨h, h'⟩ | ⟨u, t, h, h', he⟩
    · rw [h, h']
      exact seqBegin_mask s
    · rw [h, h']
      exact congrArg some he
  · exact seqBegin_mask s
  · exact seqBegin_mask s

theorem seqStep_mask (s : State) (hk : ∀ k p, s.pipe = .seq k → s.devAns = some p → k.Stands s) (hq : s.sq.Sound) :
    maskOut s.maskUnspecified.seqStep = maskOut s.seqStep := by
  unfold State.seqStep
  rcases map_eq_cases (seqNext_mask s hk hq) with ⟨h, h'⟩ | ⟨u, t, h, h', he⟩
  · rw [h, h']
    exact congrArg Host.Outcome.next (mask_mask s)
  · rw [h, h']
    exact congrArg Host.Outcome.next he

/-! ### CMDENG -/

theorem exec_maskOut (i : Instr) (s : State) : maskOut (exec i s.maskUnspecified) = maskOut (exec i s) := by
  by_cases h : i = .showmsg
  · subst h
    exact execShowmsg_mask s
  · rw [exec_mask i s h, maskOut_maskOut]

theorem execute_mask (s : State) : maskOut s.maskUnspecified.execute = maskOut s.execute := by
  unfold State.execute
  rw [mask_pending]
  split
  · exact exec_maskOut _ s
  · exact maskOut_maskOut (s.finishWith _)

/-- A host command goes on after DEVICE's answer without reading a payload. -/
theorem resume_mask (p : DevReply) (s : State) : s.maskUnspecified.resume p = (s.resume p).maskUnspecified := by
  obtain ⟨r, a⟩ := p
  cases r with
  | openDev => cases a <;> rfl
  | closeDev => rfl
  | write b => rfl

/-- The step that CMDENG is ready to make, up to masking. -/
theorem cmdengNext_mask (s : State) : s.maskUnspecified.cmdengNext.map maskOut = s.cmdengNext.map maskOut := by
  unfold State.cmdengNext
  rw [mask_pipe, mask_outcome, mask_devAns]
  split
  · exact map_ite_congr (fun _ => congrArg some (execute_mask s)) fun _ => rfl
  · split
    · rename_i r _
      exact congrArg (fun t => some (Host.Outcome.next t)) (mask_mask (s.completeStep r))
    · split
      · rename_i p _
        rw [resume_mask]
        exact congrArg (fun t => some (Host.Outcome.next t)) (mask_mask (s.resume p))
      · rcases map_eq_cases (flushNext_mask s) with ⟨h, h'⟩ | ⟨u, t, h, h', he⟩
        · rw [h, h']
        · rw [h, h']
          exact congrArg (fun t => some (Host.Outcome.next t)) he
  · rfl

theorem cmdengStep_mask (s : State) : maskOut s.maskUnspecified.cmdengStep = maskOut s.cmdengStep := by
  unfold State.cmdengStep
  rcases map_eq_cases (cmdengNext_mask s) with ⟨h, h'⟩ | ⟨u, t, h, h', he⟩
  · rw [h, h']
    exact congrArg Host.Outcome.next (mask_mask s)
  · rw [h, h']
    exact he

/-! ### One step -/

theorem cmdengReady_mask (s : State) : s.maskUnspecified.cmdengReady = s.cmdengReady := by
  unfold State.cmdengReady
  rw [← Option.isSome_map (f := maskOut), cmdengNext_mask, Option.isSome_map]

theorem seqReady_mask (s : State) (hk : ∀ k p, s.pipe = .seq k → s.devAns = some p → k.Stands s) (hq : s.sq.Sound) :
    s.maskUnspecified.seqReady = s.seqReady := by
  unfold State.seqReady
  rw [← Option.isSome_map (f := State.maskUnspecified), seqNext_mask s hk hq, Option.isSome_map]

/-- The block's own move picks the same agent from the masked state. -/
theorem ownStep_mask (s : State) (hk : ∀ k p, s.pipe = .seq k → s.devAns = some p → k.Stands s) (hq : s.sq.Sound) :
    maskOut s.maskUnspecified.ownStep = maskOut s.ownStep := by
  unfold State.ownStep
  rw [cmdengReady_mask, seqReady_mask s hk hq, mask_arbCount]
  split
  · split
    · dsimp only
      split
      · exact cmdengStep_mask { s with arbCount := s.arbCount + 1 }
      · exact seqStep_mask { s with arbCount := s.arbCount + 1 } hk hq
    · exact cmdengStep_mask s
  · exact seqStep_mask s hk hq

/-- Every event has the same effect on the masked state, up to masking. -/
theorem deliver_mask (e : Event) (s : State) (hk : ∀ k p, s.pipe = .seq k → s.devAns = some p → k.Stands s) (hq : s.sq.Sound) :
    maskOut (State.deliver e s.maskUnspecified) = maskOut (State.deliver e s) := by
  cases e with
  | host a =>
    refine congrArg Host.Outcome.next ?_
    rw [hostAccess_mask, mask_mask]
  | cmdeng => exact cmdengStep_mask s
  | seq => exact seqStep_mask s hk hq
  | tick => exact congrArg Host.Outcome.next (tick_mask s)
  | answer a => exact (congrArg maskOut (deviceAnswer_mask a s)).trans (maskOut_maskOut _)
  | reset => rfl

/-- In a safe pipeline the owner of PIPE makes the request that is outstanding (60_exceptions R198). -/
theorem makes_of_request {s : State} {r : DevRequest} (h : s.PipelineSound) (hr : s.devReq = some r) : s.pipe.makes r = true := by
  cases h.stage with
  | asked q hp => rw [hp]; exact makes_of_host r
  | seqAsked k q hp _ hq _ _ hw =>
    cases hq.symm.trans hr
    rw [hp, hw]
    rfl
  | _ => simp_all

/-- Every command word answers a next state. -/
theorem execute_answers (s : State) : ∃ t, s.execute = .next t := by
  unfold State.execute
  split
  · rename_i i _
    obtain ⟨t, ht, -⟩ := exec_cases i s
    exact ⟨t, ht⟩
  · exact ⟨_, rfl⟩

/-- A safe state has a next state: the only fault is an answer to a request that the owner of PIPE does not make. -/
theorem step_answers (s : State) (hs : s.Safe) : ∃ t, step s = .next t := by
  obtain ⟨rest, n, hm⟩ := step_cases s
  generalize step s = o at hm
  cases hm with
  | execute => exact execute_answers _
  | answer a r _ hr =>
    rcases answered_cases (s.scheduled rest n) r a with ⟨-, he⟩ | ⟨hk, -⟩
    · exact ⟨_, he⟩
    · exact absurd (makes_of_request hs.pipeline hr) (by rw [show s.pipe.makes r = false from hk]; exact Bool.false_ne_true)
  | _ => exact ⟨_, rfl⟩

/-- In a safe state a step has the same effect on the masked state, up to masking. -/
theorem step_mask (s : State) (hs : s.Safe) : maskOut (step s.maskUnspecified) = maskOut (step s) := by
  have hk : ∀ k p, s.pipe = .seq k → s.devAns = some p → k.Stands s := fun _ _ hp ha => stands_of_answer hs.pipeline hp ha
  unfold step State.move
  rw [mask_agenda]
  split
  · exact ownStep_mask s hk hs.sequencer
  · rename_i e rest _
    exact deliver_mask e { s with agenda := rest } hk hs.sequencer

/-- Settles O52: both steps agree, up to masking, with the step from the common masked state. -/
theorem unspecifiedPayloadsAreNeverRead : Obligations.UnspecifiedPayloadsAreNeverRead := by
  intro s t hs ht h
  obtain ⟨s', hs'⟩ := step_answers s hs
  obtain ⟨t', ht'⟩ := step_answers t ht
  refine ⟨s', t', hs', ht', ?_⟩
  have he : maskOut (step s) = maskOut (step t) := by rw [← step_mask s hs, h, step_mask t ht]
  rw [hs', ht'] at he
  exact Host.Outcome.next.inj he

end Sys2Proof.Machine
end

section
/-!
SUPPORT. HOST's access to the window (20_memory R56-R71): what stands at an offset, what a read answers and what a write stores, and the
computed registers as sums of their fields; then the statements about the bus.
-/

namespace Sys2Proof.Machine

/-! ### The window map -/

theorem locate_register (o : Nat) (h : o < 0x100) : locate o = registerAt o := if_pos h

/-- The offsets of the register part at which nothing stands (20_memory R63). -/
theorem registerAt_reserved (o : Nat) (h : (0x054 ≤ o ∧ o ≤ 0x057) ∨ (0x06C ≤ o ∧ o ≤ 0x0FF)) : registerAt o = .reserved := by
  unfold registerAt
  split
  case h_27 => rfl
  all_goals omega

/-- The reserved ranges of the window (20_memory R63). -/
theorem locate_reserved (o : Nat)
    (h : (0x054 ≤ o ∧ o ≤ 0x057) ∨ (0x06C ≤ o ∧ o ≤ 0x0FF) ∨ (0x180 ≤ o ∧ o ≤ 0x1FF) ∨ (0x500 ≤ o ∧ o ≤ 0x7FF) ∨
      (0xD00 ≤ o ∧ o ≤ 0xFFF)) : locate o = .reserved := by
  by_cases hr : o < 0x100
  · rw [locate_register o hr]
    exact registerAt_reserved o (by omega)
  · unfold locate
    split_ifs
    any_goals rfl
    all_goals omega

/-- The staging memories that HOST may write (20_memory R61, R64). -/
theorem locate_staging (o : Nat) (h : (0x200 ≤ o ∧ o < 0x400) ∨ (0x800 ≤ o ∧ o < 0xD00)) :
    locate o = .mstage ∨ locate o = .batch ∨ locate o = .text := by
  unfold locate
  split_ifs
  any_goals simp only [or_true, true_or]
  all_goals omega

/-- Every memory of the window (20_memory R64). -/
theorem locate_memory (o : Nat) (h : memoryOffset o) :
    locate o = .fbwin ∨ locate o = .mresult ∨ locate o = .mstage ∨ locate o = .batch ∨ locate o = .text := by
  unfold memoryOffset at h
  unfold locate
  split_ifs
  any_goals simp only [or_true, true_or]
  all_goals omega

/-! ### One access -/

/-- An aligned word read answers the value of its location (20_memory R60). -/
theorem next_read (o : BitVec 12) (s : State) (v : Word) (ho : o.toNat % 4 = 0) (hv : s.readLocation o.toNat = some v) :
    Next (.host (.read o 4)) s = .next { s with busResp := .readOkay v } := by
  have ha : s.hostRead o 4 = .readOkay v := by
    unfold State.hostRead accessAligned
    simp [ho, hv]
  rw [← ha]
  rfl

/-- An aligned word write does what its location does with it (20_memory R61). -/
theorem next_write (o : BitVec 12) (v : Word) (s t : State) (ho : o.toNat % 4 = 0) (ht : s.writeLocation o.toNat v = some t) :
    Next (.host (.write o 4 v)) s = .next { t with busResp := .writeOkay } := by
  rw [next_eq_deliver]
  show Host.Outcome.next (s.hostWrite o 4 v) = _
  unfold State.hostWrite accessAligned
  simp [ho, ht]

/-- An access that is not aligned, or reaches a reserved location, answers `buserr` (20_memory R62, R67). -/
theorem next_buserr (o : BitVec 12) (size : Nat) (v : Word) (s : State)
    (h : accessAligned o size = true → locate o.toNat = .reserved) :
    Next (.host (.read o size)) s = .next { s with busResp := .buserr } ∧
    Next (.host (.write o size v)) s = .next { s with busResp := .buserr } := by
  have hread : s.hostRead o size = .buserr := by
    unfold State.hostRead State.readLocation
    split
    · rw [h ‹_›]
    · rfl
  have hwrite : s.hostWrite o size v = { s with busResp := .buserr } := by
    unfold State.hostWrite State.writeLocation
    split
    · rw [h ‹_›]
    · rfl
  refine ⟨?_, congrArg Host.Outcome.next hwrite⟩
  rw [← hread]
  rfl

/-- Settles O44: an access of the bus's own kind to an offset named here reaches a reserved location. -/
theorem badAccessAnswersBuserr : Obligations.BadAccessAnswersBuserr := by
  intro s o size v h
  refine next_buserr o size v s fun ha => locate_reserved _ ?_
  unfold accessAligned at ha
  simp only [Bool.and_eq_true, decide_eq_true_eq] at ha
  omega

/-! ### The computed registers as sums of their fields -/

/-- STATUS as a sum of its fields (10_state R26). -/
theorem statusWord_eq (s : State) :
    s.statusWord = BitVec.ofNat 32
      ((bit s.cmdBusy).toNat + 2 * s.lifecycle.bits.toNat + 8 * (bit s.lowlight).toNat + 16 * s.rot.toNat + 64 * (bit s.haz).toNat +
        128 * (bit s.seqActive).toNat) := by
  apply BitVec.eq_of_toNat_eq
  refine (toNat_cat _ _).trans ?_
  simp only [toNat_cat, BitVec.ofNat_eq_ofNat, BitVec.toNat_ofNat]
  omega

/-- SCROLL_STATUS as a sum of its fields (10_state R50). -/
theorem scrollStatusWord_eq (s : State) :
    s.scrollStatusWord = BitVec.ofNat 32
      (s.sq.phase.bits.toNat + 8 * (bit s.sq.reqValid).toNat + 16 * (bit s.sq.tickPending).toNat + 256 * s.sq.activeTag.toNat +
        65536 * s.sq.lastTag.toNat) := by
  apply BitVec.eq_of_toNat_eq
  refine (toNat_cat _ _).trans ?_
  simp only [toNat_cat, BitVec.ofNat_eq_ofNat, BitVec.toNat_ofNat]
  omega

/-- SCROLL_DONE as a sum of its fields (10_state R51). -/
theorem scrollDoneWord_eq (s : State) :
    s.scrollDoneWord = BitVec.ofNat 32
      ((bit s.done.valid).toNat + 2 * (bit s.done.ovf).toNat + 16 * s.done.code.toNat + 256 * s.done.tag.toNat +
        65536 * s.done.cause.toNat) := by
  apply BitVec.eq_of_toNat_eq
  refine (toNat_cat _ _).trans ?_
  simp only [toNat_cat, BitVec.ofNat_eq_ofNat, BitVec.toNat_ofNat]
  omega

/-- SCROLL_POS as a sum of its fields (10_state R52). -/
theorem scrollPosWord_eq (s : State) : s.scrollPosWord = BitVec.ofNat 32 (s.sq.offset.toNat + 65536 * s.sq.tw.toNat) := by
  apply BitVec.eq_of_toNat_eq
  refine (toNat_catHalves _ _).trans ?_
  simp only [BitVec.toNat_ofNat]
  omega

/-! ### What reads answer -/

/-- A memory word reads its four bytes (20_memory R60). -/
theorem readLocation_memory (o : Nat) (s : State) (h : memoryOffset o) : s.readLocation o = some (s.mem.readWord o) := by
  unfold State.readLocation
  rcases locate_memory o h with hl | hl | hl | hl | hl <;> rw [hl]

/-- A FBWIN word is two pixel words, the one of the lower index in its low half (20_memory R65). -/
theorem readWord_fbwin (s : State) (k : Nat) : s.mem.readWord (0x100 + 4 * k) = s.fb (2 * k + 1) ++ s.fb (2 * k) := by
  unfold Memory.readWord State.fb Memory.pixel fbBase
  rw [show 0x100 + 4 * k + 2 = 0x100 + 2 * (2 * k + 1) by omega, show 0x100 + 4 * k = 0x100 + 2 * (2 * k) by omega]

/-- Settles O45: the registers by the window map and the computed words' sums, the memories by `readLocation_memory`. -/
theorem readsAnswerCurrentValues : Obligations.ReadsAnswerCurrentValues := by
  intro s b2n busy life seqState active rows
  have hb2n : b2n = fun b => (bit b).toNat := funext fun b => by cases b <;> rfl
  have hlife : life = s.lifecycle.bits.toNat := by
    unfold life
    cases s.lifecycle <;> rfl
  have hseq : seqState = s.sq.phase.bits.toNat := by
    unfold seqState
    cases s.sq.phase <;> rfl
  have hactive : active = s.sq.activeTag.toNat := by
    unfold active Sequencer.activeTag
    cases s.sq.phase <;> rfl
  have hrows : ∀ row ∈ rows, s.readLocation row.1.toNat = some row.2 := by
    refine List.map_inj_left.mp ?_
    unfold rows
    rw [hb2n, hlife, hseq, hactive, show busy = s.cmdBusy from rfl, show decide (s.sq.phase ≠ .idle) = s.seqActive from rfl,
      ← statusWord_eq, ← scrollStatusWord_eq, ← scrollDoneWord_eq, ← scrollPosWord_eq]
    rfl
  have haligned : ∀ row ∈ rows, row.1.toNat % 4 = 0 := by simp [rows]
  refine ⟨fun row hr => next_read _ s _ (haligned row hr) (hrows row hr), fun k hk => ?_, fun o ho hm =>
    next_read o s _ ho (readLocation_memory _ s hm)⟩
  have ho : (BitVec.ofNat 12 (0x100 + 4 * k)).toNat = 0x100 + 4 * k := Nat.mod_eq_of_lt (by omega)
  refine next_read _ s _ (by omega) ?_
  rw [ho, readLocation_memory _ s (by unfold memoryOffset; omega), readWord_fbwin]

/-! ### What writes store while CMD_BUSY = 0 -/

/-- With CMD_BUSY = 0 the interlock lets the write through (70_reset_and_hazards R210). -/
theorem interlocked_of_idle (w : State → State) (s : State) (h : s.cmdBusy = false) : s.interlocked w = w s := by
  unfold State.interlocked
  rw [h]
  rfl

/-- The operand registers, in the order of the window (20_memory R64). -/
def operandRegisters : List OperandReg :=
  [.pos, .colorRg, .colorB, .arg, .mshape, .rowlen, .textcolRg, .textcolB, .backcolRg, .backcolB, .speed, .textlen, .hexlen, .hexin0,
    .hexin1]

/-- Where an operand register stands in the window (20_memory R64). -/
def OperandReg.offset : OperandReg → BitVec 12
  | .pos => 0x010
  | .colorRg => 0x014
  | .colorB => 0x018
  | .arg => 0x01C
  | .mshape => 0x028
  | .rowlen => 0x02C
  | .textcolRg => 0x030
  | .textcolB => 0x034
  | .backcolRg => 0x038
  | .backcolB => 0x03C
  | .speed => 0x040
  | .textlen => 0x044
  | .hexlen => 0x048
  | .hexin0 => 0x04C
  | .hexin1 => 0x050

theorem locate_operand (r : OperandReg) : locate r.offset.toNat = .operand r := by cases r <;> rfl

theorem offset_aligned (r : OperandReg) : r.offset.toNat % 4 = 0 := by cases r <;> rfl

/-- A write to an operand register stores all 32 bits (10_state R23). -/
theorem next_write_operand (r : OperandReg) (v : Word) (s : State) (h : s.cmdBusy = false) :
    Next (.host (.write r.offset 4 v)) s = .next { s with regs := s.regs.set r v, busResp := .writeOkay } := by
  refine next_write _ v s { s with regs := s.regs.set r v } (offset_aligned r) ?_
  unfold State.writeLocation
  rw [locate_operand]
  exact congrArg some (interlocked_of_idle _ s h)

/-- A write to a staging word stores it (20_memory R61). -/
theorem writeLocation_staging (o : Nat) (v : Word) (s : State) (h : s.cmdBusy = false)
    (ho : (0x200 ≤ o ∧ o < 0x400) ∨ (0x800 ≤ o ∧ o < 0xD00)) : s.writeLocation o v = some (s.storeWord o v) := by
  unfold State.writeLocation
  rcases locate_staging o ho with hl | hl | hl <;> rw [hl] <;> exact congrArg some (interlocked_of_idle _ s h)

/-- Settles O46: each write passes the interlock and is done by its location. -/
theorem writesStoreWhenIdle : Obligations.WritesStoreWhenIdle := by
  intro s v hv hp r rows
  have hb : s.cmdBusy = false := by
    unfold State.cmdBusy
    rw [hv, decide_eq_false hp]
    rfl
  refine ⟨?_, ?_, fun o ho hs => ?_⟩
  · show ∀ row ∈ operandRegisters.map (fun r => (r.offset, s.regs.set r v)), _
    exact List.forall_mem_map.mpr fun r _ => next_write_operand r v s hb
  · exact next_write _ v s (s.latch v) rfl (congrArg some (interlocked_of_idle _ s hb))
  · exact ⟨s.mem.writeWord o.toNat v, next_write o v s _ ho (writeLocation_staging _ v s hb hs), Memory.readWord_writeWord_same _ _ _,
      fun a ha => Memory.readByte_writeWord_other _ _ _ _ ha⟩

end Sys2Proof.Machine
end

section
/-!
SUPPORT. How long an operation keeps the pixel pipeline, and what its stages are (20_memory R78, R80, R85).
-/

namespace Sys2Proof.Machine

/-- The owner of PIPE and its stage are the same: its flush as due as before, the same request outstanding. -/
structure SameStage (s t : State) : Prop where
  pipe : t.pipe = s.pipe
  flushDue : t.flushDue = s.flushDue
  devReq : t.devReq = s.devReq

theorem SameStage.of_eq {s t u : State} (h : t = u) (hs : SameStage s u) : SameStage s t := by
  subst h
  exact hs

/-- While PIPE is owned, SEQ begins no operation: it takes, or its own operation requests its flush or ends (43_scroll R164-R169). -/
theorem SeqMove.of_owned {s t : State} (h : SeqMove s t) (hp : s.pipe ≠ .free) :
    SameStage s t ∨
    (s.flushDue = true ∧ s.devReq = none ∧ t = s.requestFlush) ∨
    (s.pipe ≠ .host ∧ ∃ p, s.devAns = some p ∧ t.pipe = .free ∧ t.devReq = s.devReq ∧ t.devAns = none) := by
  cases h with
  | startFails _ _ hf | start _ _ hf | frameFails _ _ _ hf | frame _ _ _ hf | finishFails _ hf | finish _ hf => exact absurd hf hp
  | take => exact .inl ⟨rfl, rfl, rfl⟩
  | request k _ _ hf hd => exact .inr (.inl ⟨hf, hd, rfl⟩)
  | resume k p hk ha =>
    obtain ⟨q, d, he⟩ := State.seqResume_frame k p.answer s
    rw [he]
    exact .inr (.inr ⟨by rw [hk]; exact nofun, p, ha, rfl, rfl, rfl⟩)

/-- What a step that answers `t` does to the operation that owns PIPE at `s`. -/
inductive OwnerEffect (s : State) (t : State) : Prop where
  | same : SameStage s t → OwnerEffect s t
  | request : s.flushDue = true → s.devReq = none → t.pipe = s.pipe → t.flushDue = false →
      t.devReq = some (.write s.fbBytes) → t.mem = s.mem → OwnerEffect s t
  | answer (a : DevAnswer) (r : DevRequest) (rest : List Event) : s.agenda = .answer a :: rest → s.devReq = some r → t.pipe = s.pipe →
      t.flushDue = s.flushDue → t.devReq = none → t.devAns = some ⟨r, a⟩ → OwnerEffect s t
  | hostEnds (r : Report) : s.pipe = .host → s.outcome = some r → t.pipe = .free → t.devReq = s.devReq → t.outcome = none →
      OwnerEffect s t
  | seqEnds (p : DevReply) : s.pipe ≠ .host → s.devAns = some p → t.pipe = .free → t.devReq = s.devReq → t.devAns = none →
      OwnerEffect s t
  | reset (rest : List Event) : s.agenda = .reset :: rest → t.pipe = .free → t.devReq = none → OwnerEffect s t

theorem StepEffect.owner {s t : State} {rest : List Event} {n : Nat} (h : StepEffect s rest n t) (hp : s.pipe ≠ .free) :
    OwnerEffect s t := by
  cases h with
  | illegal _ _ hf | execute _ _ hf => exact absurd hf hp
  | host u r hu ht =>
    have hk : SameStage s u := .of_eq hu.writes ⟨rfl, rfl, rfl⟩
    exact .same (.of_eq ht ⟨hk.pipe, hk.flushDue, hk.devReq⟩)
  | resume p _ _ _ hr => exact .same (by cases hr <;> exact ⟨rfl, rfl, rfl⟩)
  | tick _ ht => exact .same (.of_eq (ht.trans (State.tick_writes _)) ⟨rfl, rfl, rfl⟩)
  | wait ht => exact .same (.of_eq ht ⟨rfl, rfl, rfl⟩)
  | request _ _ _ hf hd ht =>
    subst ht
    exact .request hf hd rfl rfl rfl rfl
  | complete r hh ho ht =>
    subst ht
    exact .hostEnds r hh ho rfl rfl rfl
  | answer a r ha hr _ ht =>
    subst ht
    exact .answer a r rest ha hr rfl rfl rfl rfl
  | reset ha ht =>
    subst ht
    exact .reset rest ha rfl rfl
  | seq hq =>
    rcases hq.of_owned hp with hk | ⟨hf, hd, rfl⟩ | ⟨hh, p, ha, hfree, hreq, hans⟩
    · exact .same ⟨hk.pipe, hk.flushDue, hk.devReq⟩
    · exact .request hf hd rfl rfl rfl rfl
    · exact .seqEnds p hh ha hfree hreq hans

/-- Settles O58, by what a step does to the owner's operation. -/
theorem pipelineOwnerWaitsForAnswer : Obligations.PipelineOwnerWaitsForAnswer := by
  intro s t h hp
  obtain ⟨rest, n, he⟩ := step_effect s t h
  cases he.owner hp with
  | same hk => exact .inl ⟨hk.pipe, .inl ⟨hk.flushDue, hk.devReq⟩⟩
  | request hf hd hpipe hdue hreq hmem => exact .inl ⟨hpipe, .inr (.inl ⟨hf, hd, hdue, hreq, hmem⟩)⟩
  | answer a r rest ha hr hpipe hdue hreq hans => exact .inl ⟨hpipe, .inr (.inr ⟨hdue, r, a, rest, hr, ha, hreq, hans⟩)⟩
  | hostEnds r hh ho hpipe hreq hout => exact .inr (.inl ⟨hpipe, hreq, .inl ⟨hh, r, ho, hout⟩⟩)
  | seqEnds p hh ha hpipe hreq hans => exact .inr (.inl ⟨hpipe, hreq, .inr ⟨hh, p, ha, hans⟩⟩)
  | reset rest ha hpipe hreq => exact .inr (.inr ⟨hpipe, hreq, rest, ha⟩)

end Sys2Proof.Machine
end

section
/-!
SUPPORT. The decoder and the encoder, case by case of the two checks of a word (30_encoding R86-R94), the step in which CMDENG takes a
latched word, and the statements about them.
-/

namespace Sys2Proof.Machine

/-! ### The opcode map -/

@[simp] theorem instrOfOpcode_opcode (i : Instr) : instrOfOpcode i.opcode = some i := by cases i <;> rfl

/-- The opcodes that R94 reserves, as numbers. -/
def ReservedOpcode (op : Nat) : Prop :=
  (0x05 ≤ op ∧ op ≤ 0x0F) ∨ (0x19 ≤ op ∧ op ≤ 0x1F) ∨ (0x24 ≤ op ∧ op ≤ 0x2F) ∨ (0x31 ≤ op ∧ op ≤ 0xFF)

theorem not_reservedOpcode_opcode (i : Instr) : ¬ ReservedOpcode i.opcode.toNat := by
  unfold ReservedOpcode
  cases i <;> decide

/-- The map has no command exactly for the reserved opcodes (30_encoding R93, R94). -/
theorem instrOfOpcode_eq_none_iff (op : Byte) : instrOfOpcode op = none ↔ ReservedOpcode op.toNat := by
  constructor
  · intro h
    have hlt := op.isLt
    unfold instrOfOpcode at h
    unfold ReservedOpcode
    split at h
    case h_20 => -- the row of the missing numbers
      simp only [imp_false] at *
      omega
    all_goals cases h
  · intro h
    cases hi : instrOfOpcode op with
    | none => rfl
    | some i =>
      rw [← opcode_of_instrOfOpcode op i hi] at h
      exact absurd h (not_reservedOpcode_opcode i)

/-! ### The decoder, check by check -/

@[simp] theorem rsvField_encode (i : Instr) : rsvField (encode i) = 0 := by cases i <;> rfl

/-- Check 1 (30_encoding R92). -/
theorem decode_of_rsv_ne_zero (w : Word) (h : rsvField w ≠ 0) : decode w = .error .rsvNonzero := if_pos h

/-- Check 2, passed (30_encoding R93). -/
theorem decode_of_assigned (w : Word) (i : Instr) (hr : rsvField w = 0) (hi : instrOfOpcode (opField w) = some i) :
    decode w = .ok i := by
  unfold decode
  rw [if_neg (not_not.mpr hr), hi]

/-- Check 2, failed (30_encoding R94). -/
theorem decode_of_unassigned (w : Word) (hr : rsvField w = 0) (hi : instrOfOpcode (opField w) = none) :
    decode w = .error .reservedOpcode := by
  unfold decode
  rw [if_neg (not_not.mpr hr), hi]

@[simp] theorem decode_encode (i : Instr) : decode (encode i) = .ok i :=
  decode_of_assigned _ i (rsvField_encode i) ((opField_encode i).symm ▸ instrOfOpcode_opcode i)

theorem decode_eq_ok_iff (i : Instr) (w : Word) : decode w = .ok i ↔ w = encode i :=
  ⟨eq_encode_of_decode w i, fun h => h ▸ decode_encode i⟩

theorem decode_eq_rsvNonzero_iff (w : Word) : decode w = .error .rsvNonzero ↔ rsvField w ≠ 0 := by
  refine ⟨fun h hr => ?_, decode_of_rsv_ne_zero w⟩
  cases hi : instrOfOpcode (opField w) with
  | none => cases h.symm.trans (decode_of_unassigned w hr hi)
  | some i => cases h.symm.trans (decode_of_assigned w i hr hi)

theorem decode_eq_reservedOpcode_iff (w : Word) :
    decode w = .error .reservedOpcode ↔ rsvField w = 0 ∧ ReservedOpcode (opField w).toNat := by
  rw [← instrOfOpcode_eq_none_iff]
  refine ⟨fun h => ?_, fun ⟨hr, hi⟩ => decode_of_unassigned w hr hi⟩
  have hr : rsvField w = 0 := by
    by_contra hr
    cases h.symm.trans (decode_of_rsv_ne_zero w hr)
  refine ⟨hr, ?_⟩
  cases hi : instrOfOpcode (opField w) with
  | none => rfl
  | some i => cases h.symm.trans (decode_of_assigned w i hr hi)

/-- Settles O2: `eq_encode_of_decode` one way, `decode_encode` the other. -/
theorem decodeAgreesWithEncode : Obligations.DecodeAgreesWithEncode := decode_eq_ok_iff

/-- Settles O3, one check of the decoder for each rejection. -/
theorem decodeRejectsByName : Obligations.DecodeRejectsByName := fun w =>
  ⟨decode_eq_rsvNonzero_iff w, decode_eq_reservedOpcode_iff w⟩

/-- Settles O1: each word is an encoding, or fails the check that names it. -/
theorem decodeReadsSpecWords : Obligations.DecodeReadsSpecWords :=
  ⟨decode_encode .nop, decode_encode .init, decode_encode .setpix, decode_encode .flipv, decode_encode .pack, decode_encode .showmsg,
    decode_of_rsv_ne_zero _ (by decide), decode_of_unassigned _ rfl rfl⟩

/-! ### CMDENG takes the latched word -/

theorem execute_of_decode_ok (s : State) (i : Instr) (h : decode s.pending.word = .ok i) : s.execute = exec i s := by
  unfold State.execute
  rw [h]

/-- An illegal word ends with ILLEGAL and its sub-cause (30_encoding R92, R94; 60_exceptions R182). -/
theorem execute_of_decode_error (s : State) (e : Illegal) (h : decode s.pending.word = .error e) :
    s.execute = .next (Ended s (errValue 0 (opField s.pending.word).toNat (illegalCause e).toNat 4)) := by
  unfold State.execute State.finishWith
  rw [h]
  exact congrArg Host.Outcome.next (State.complete_eq_ended s (.illegalCommand e))

/-- With a latched command and PIPE free, CMDENG's step is its execute step (30_encoding R91 step 2). -/
theorem cmdengNext_of_latched (s : State) (hv : s.pending.valid = true) (hp : s.pipe = .free) : s.cmdengNext = some s.execute := by
  unfold State.cmdengNext
  rw [hp]
  exact if_pos hv

theorem cmdengReady_of_latched (s : State) (hv : s.pending.valid = true) (hp : s.pipe = .free) : s.cmdengReady = true := by
  unfold State.cmdengReady
  rw [cmdengNext_of_latched s hv hp]
  rfl

theorem cmdengStep_of_latched (s : State) (hv : s.pending.valid = true) (hp : s.pipe = .free) : s.cmdengStep = s.execute := by
  unfold State.cmdengStep
  rw [cmdengNext_of_latched s hv hp]

theorem next_cmdeng_of_latched (s : State) (hv : s.pending.valid = true) (hp : s.pipe = .free) : Next .cmdeng s = s.execute :=
  (next_eq_deliver .cmdeng s).trans (cmdengStep_of_latched s hv hp)

/-! ### The block's own move -/

theorem step_of_agenda_nil (s : State) (h : s.agenda = []) : step s = s.ownStep := by
  unfold step State.move
  rw [h]

theorem seqStep_of_seqNext (s t : State) (h : s.seqNext = some t) : s.seqStep = .next t := by
  unfold State.seqStep
  rw [h]

/-- Whether SEQ can begin a step does not depend on the ARB draws made. -/
theorem seqBegin_isSome_arbCount (s : State) (n : Nat) : { s with arbCount := n }.seqBegin.isSome = s.seqBegin.isSome := by
  unfold State.seqBegin
  dsimp only
  cases s.sq.phase with
  | idle | settle => rfl
  | start | finish =>
    dsimp only
    split <;> rfl
  | run =>
    dsimp only
    split
    · split
      · split <;> rfl
      · rfl
    · rfl

/-- Whether SEQ has a step to make does not depend on the ARB draws made. -/
theorem seqReady_arbCount (s : State) (n : Nat) : { s with arbCount := n }.seqReady = s.seqReady := by
  unfold State.seqReady State.seqNext State.flushNext
  dsimp only
  split
  · rfl
  · cases s.flushDue && s.devReq.isNone
    · exact seqBegin_isSome_arbCount s n
    · rfl
  · exact seqBegin_isSome_arbCount s n
  · exact seqBegin_isSome_arbCount s n

theorem step_of_latched_of_not_seqReady (s : State) (hv : s.pending.valid = true) (hp : s.pipe = .free) (ha : s.agenda = [])
    (hq : s.seqReady = false) : step s = s.execute := by
  rw [step_of_agenda_nil s ha, State.ownStep, cmdengReady_of_latched s hv hp, hq]
  exact cmdengStep_of_latched s hv hp

/-- With SEQ ready too, the next ARB draw picks between the two (20_memory R79). -/
theorem step_of_latched_of_seqReady (s : State) (hv : s.pending.valid = true) (hp : s.pipe = .free) (ha : s.agenda = [])
    (hq : s.seqReady = true) :
    step s = State.execute { s with arbCount := s.arbCount + 1 } ∨
    step s = State.seqStep { s with arbCount := s.arbCount + 1 } := by
  rw [step_of_agenda_nil s ha, State.ownStep, cmdengReady_of_latched s hv hp, hq]
  cases Config.arb s.arbCount with
  | true => exact .inl (cmdengStep_of_latched _ hv hp)
  | false => exact .inr rfl

/-- Settles O4: the pick of CMDENG, and the block's own move without and with a ready SEQ. -/
theorem stepRunsDecodedCommand : Obligations.StepRunsDecodedCommand := by
  intro s i hv hp hd
  refine ⟨?_, fun ha hq => ?_, fun ha hq => ?_⟩
  · rw [next_cmdeng_of_latched s hv hp, execute_of_decode_ok s i hd]
  · rw [step_of_latched_of_not_seqReady s hv hp ha hq, execute_of_decode_ok s i hd]
  · rcases step_of_latched_of_seqReady s hv hp ha hq with h | h
    · exact .inl (h.trans (execute_of_decode_ok _ i hd))
    · rw [← seqReady_arbCount s (s.arbCount + 1)] at hq
      obtain ⟨t, ht⟩ := Option.isSome_iff_exists.mp hq
      exact .inr ⟨t, ht, h.trans (seqStep_of_seqNext _ t ht)⟩

/-- Settles O5, from the check that the word fails. -/
theorem illegalWordsChangeOnlyErr : Obligations.IllegalWordsChangeOnlyErr := by
  intro s hv hp
  refine ⟨fun hr => ?_, fun hr hop => ?_⟩
  · have hd := (decode_eq_rsvNonzero_iff s.pending.word).mpr hr
    rw [next_cmdeng_of_latched s hv hp, execute_of_decode_error s _ hd]
    rfl
  · have hd := (decode_eq_reservedOpcode_iff s.pending.word).mpr ⟨hr, hop⟩
    rw [next_cmdeng_of_latched s hv hp, execute_of_decode_error s _ hd]
    rfl

/-! ### A placed command -/

/-- The step after a word is placed executes it, whoever would move otherwise (log 12). -/
theorem step_placeCommand (w : Word) (s : State) :
    step (s.placeCommand w) =
      State.execute { s.latch w with pipe := .free, flushDue := false, devReq := none, devAns := none, outcome := none } := by
  unfold State.placeCommand
  dsimp only
  split
  · rename_i h
    obtain ⟨ha, hq⟩ := h
    exact step_of_latched_of_not_seqReady _ rfl rfl ha hq
  · exact next_cmdeng_of_latched
      { s.latch w with pipe := .free, flushDue := false, devReq := none, devAns := none, outcome := none } rfl rfl

theorem withFetchWord_toNat (s : State) (w : Word) : s.withFetchWord 32 w.toNat = s.placeCommand w := by
  unfold State.withFetchWord
  rw [Nat.mod_eq_of_lt w.isLt, BitVec.ofNat_toNat, BitVec.setWidth_eq]

/-- Settles O6: the placed word is an encoding, so executing it runs its command. -/
theorem placedCommandRunsNext : Obligations.PlacedCommandRunsNext := by
  intro s i
  rw [withFetchWord_toNat, step_placeCommand]
  exact execute_of_decode_ok _ i (decode_encode i)

end Sys2Proof.Machine
end

section
/-!
SUPPORT. The color path as arithmetic on numbers, in the order of its definitions (40_codec R107-R111): packing, unpacking, the write
transform; and the statements about them alone.
-/

namespace Sys2Proof.Machine

/-! ### Packing and unpacking -/

/-- The packed word by its value (40_codec R107). -/
theorem packColor_eq_ofNat (c : Rgb) :
    packColor c = BitVec.ofNat 16 (c.r.toNat / 8 * 2048 + c.g.toNat / 4 * 32 + c.b.toNat / 8) := by
  rw [← packColor_toNat, BitVec.ofNat_toNat, BitVec.setWidth_eq]

/-- Red is field [15:11] expanded (40_codec R108, R109). -/
theorem unpackColor_r_toNat (p : Half) : (unpackColor p).r.toNat = 8 * (p.toNat / 2048) + p.toNat / 2048 / 4 := by
  have hr : (p.extractLsb' 11 5).toNat = p.toNat / 2048 := by
    rw [halfField_toNat]
    omega
  unfold unpackColor
  rw [e5_toNat, hr]

/-- Green is field [10:5] expanded (40_codec R108, R109). -/
theorem unpackColor_g_toNat (p : Half) : (unpackColor p).g.toNat = 4 * (p.toNat / 32 % 64) + p.toNat / 32 % 64 / 16 := by
  unfold unpackColor
  rw [e6_toNat, halfField_toNat]
  rfl

/-- Blue is field [4:0] expanded (40_codec R108, R109). -/
theorem unpackColor_b_toNat (p : Half) : (unpackColor p).b.toNat = 8 * (p.toNat % 32) + p.toNat % 32 / 4 := by
  unfold unpackColor
  rw [e5_toNat, halfField_toNat, Nat.pow_zero, Nat.div_one]
  rfl

/-- A field's expansion has the field as its top bits, so packing takes it back (40_codec R121). -/
@[simp] theorem packColor_unpackColor (p : Half) : packColor (unpackColor p) = p := by
  have hr : (unpackColor p).r.toNat / 8 = p.toNat / 2048 := by
    rw [unpackColor_r_toNat]
    omega
  have hg : (unpackColor p).g.toNat / 4 = p.toNat / 32 % 64 := by
    rw [unpackColor_g_toNat]
    omega
  have hb : (unpackColor p).b.toNat / 8 = p.toNat % 32 := by
    rw [unpackColor_b_toNat]
    omega
  rw [← BitVec.toNat_inj, packColor_toNat, hr, hg, hb]
  omega

/-- A 5-bit channel after the round trip: its top 5 bits, and their top 3 again below (40_codec R120). -/
theorem unpackColor_packColor_r_toNat (c : Rgb) : (unpackColor (packColor c)).r.toNat = 8 * (c.r.toNat / 8) + c.r.toNat / 32 := by
  rw [unpackColor_r_toNat, packColor_toNat]
  omega

/-- The 6-bit channel after the round trip. -/
theorem unpackColor_packColor_g_toNat (c : Rgb) : (unpackColor (packColor c)).g.toNat = 4 * (c.g.toNat / 4) + c.g.toNat / 64 := by
  rw [unpackColor_g_toNat, packColor_toNat]
  omega

theorem unpackColor_packColor_b_toNat (c : Rgb) : (unpackColor (packColor c)).b.toNat = 8 * (c.b.toNat / 8) + c.b.toNat / 32 := by
  rw [unpackColor_b_toNat, packColor_toNat]
  omega

/-- Settles O12: the round trip replaces the low bits that quantizing drops, 3 of red and blue and 2 of green. -/
theorem packUnpackErrorIsBounded : Obligations.PackUnpackErrorIsBounded := by
  intro c d
  have hr : d.r.toNat = _ := unpackColor_packColor_r_toNat c
  have hg : d.g.toNat = _ := unpackColor_packColor_g_toNat c
  have hb : d.b.toNat = _ := unpackColor_packColor_b_toNat c
  have := c.r.isLt
  have := c.g.isLt
  have := c.b.isLt
  refine ⟨?_, ?_, ?_⟩ <;> omega

/-! ### The write transform -/

theorem writeTransform_false (c : Rgb) : writeTransform c false = packColor c := rfl

theorem writeTransform_true (c : Rgb) : writeTransform c true = packColor (lowlightColor c) := rfl

/-- Settles O13: packing undoes unpacking, and without low-light the write transform is packing. -/
theorem repackingIsIdentity : Obligations.RepackingIsIdentity :=
  ⟨fun p => ⟨packColor_unpackColor p, (writeTransform_false _).trans (packColor_unpackColor p)⟩,
    fun c => congrArg unpackColor (packColor_unpackColor (packColor c))⟩

/-- Settles O14: packing by its value, under low-light of the channels divided by 8. -/
theorem writeTransformFields : Obligations.WriteTransformFields := by
  refine fun c => ⟨packColor_eq_ofNat c, ?_⟩
  rw [writeTransform_true, packColor_eq_ofNat]
  simp only [lowlightColor, ll_toNat, Nat.div_div_eq_div_mul]

end Sys2Proof.Machine
end

section
/-!
SUPPORT. The words that the ColorCodec commands write and read as numbers and digits (40_codec R113-R117), then one equation per outcome of
each command, and the statements about them.
-/

namespace Sys2Proof.Machine

/-! ### Result words -/

/-- The RESULT_RGB word by its value (10_state R35). -/
theorem rgbWord_eq_ofNat (c : Rgb) : rgbWord c = BitVec.ofNat 32 (c.b.toNat * 65536 + c.g.toNat * 256 + c.r.toNat) := by
  rw [← BitVec.toNat_inj, rgbWord_toNat, BitVec.toNat_ofNat]
  have := c.r.isLt
  have := c.g.isLt
  have := c.b.isLt
  omega

/-- The packed word in RESULT_565, its upper half 0 (10_state R35). -/
theorem packColor_setWidth (c : Rgb) :
    (packColor c).setWidth 32 = BitVec.ofNat 32 (c.r.toNat / 8 * 2048 + c.g.toNat / 4 * 32 + c.b.toNat / 8) := by
  rw [← packColor_toNat, BitVec.ofNat_toNat]

theorem packedOperand_toNat (arg : Word) : (packedOperand arg).toNat = arg.toNat % 65536 := by
  rw [packedOperand, field_toNat, Nat.pow_zero, Nat.div_one]
  rfl

/-- Four bytes in little-endian lanes (20_memory R70). -/
theorem wordOfBytes_toNat (b0 b1 b2 b3 : Byte) :
    (wordOfBytes b0 b1 b2 b3).toNat = b0.toNat + b1.toNat * 2 ^ 8 + b2.toNat * 2 ^ 16 + b3.toNat * 2 ^ 24 := by
  refine (toNat_cat4 b3 b2 b1 b0).trans ?_
  omega

theorem wordOfBytes_eq_ofNat (b0 b1 b2 b3 : Byte) :
    wordOfBytes b0 b1 b2 b3 = BitVec.ofNat 32 (b0.toNat + b1.toNat * 2 ^ 8 + b2.toNat * 2 ^ 16 + b3.toNat * 2 ^ 24) := by
  rw [← wordOfBytes_toNat, BitVec.ofNat_toNat, BitVec.setWidth_eq]

/-- Byte lane k of a word made of four bytes. -/
theorem extractLsb'_wordOfBytes (b0 b1 b2 b3 : Byte) (k : Nat) (hk : k < 4) :
    (wordOfBytes b0 b1 b2 b3).extractLsb' (8 * k) 8 = [b0, b1, b2, b3][k] := by
  apply BitVec.eq_of_toNat_eq
  rw [field_toNat, wordOfBytes_toNat]
  have := b0.isLt
  have := b1.isLt
  have := b2.isLt
  have := b3.isLt
  match k, hk with
  | 0, _ | 1, _ | 2, _ | 3, _ => simp only [List.getElem_cons_zero, List.getElem_cons_succ]; omega

/-! ### Hex digits -/

theorem IsHexDigit.lt {b : Byte} {v : Nat} (h : IsHexDigit b v) : v < 16 := by
  unfold IsHexDigit at h
  omega

/-- hv has a value exactly on the hex digits of either case (40_codec R115). -/
theorem hexValue_eq_some_iff (b : Byte) (v : Nat) : hexValue b = some v ↔ IsHexDigit b v := by
  unfold hexValue IsHexDigit
  dsimp only
  split
  · rw [Option.some_inj]
    omega
  · split
    · rw [Option.some_inj]
      omega
    · split
      · rw [Option.some_inj]
        omega
      · simp only [reduceCtorEq, false_iff]
        omega

theorem hexValue_eq_none_iff (b : Byte) : hexValue b = none ↔ ∀ v, ¬ IsHexDigit b v := by
  simp only [Option.eq_none_iff_forall_ne_some, ne_eq, hexValue_eq_some_iff]

/-- hd writes the lowercase digit (40_codec R117). -/
theorem hexDigit_toNat (v : Nat) (h : v < 16) : (hexDigit v).toNat = lowerHex v := by
  unfold hexDigit lowerHex
  split <;> (rw [BitVec.toNat_ofNat]; omega)

/-- What hd writes is a hex digit of the same value (40_codec R115 with R117). -/
theorem isHexDigit_hexDigit (v : Nat) (h : v < 16) : IsHexDigit (hexDigit v) v := by
  unfold IsHexDigit
  rw [hexDigit_toNat v h, lowerHex]
  split <;> omega

theorem isHexDigit_hexHigh (c : Byte) : IsHexDigit (hexHigh c) (c.toNat / 16) :=
  isHexDigit_hexDigit _ (Nat.div_lt_of_lt_mul c.isLt)

theorem isHexDigit_hexLow (c : Byte) : IsHexDigit (hexLow c) (c.toNat % 16) :=
  isHexDigit_hexDigit _ (Nat.mod_lt _ (by decide))

theorem hexHigh_toNat (c : Byte) : (hexHigh c).toNat = lowerHex (c.toNat / 16) :=
  hexDigit_toNat _ (Nat.div_lt_of_lt_mul c.isLt)

theorem hexLow_toNat (c : Byte) : (hexLow c).toNat = lowerHex (c.toNat % 16) :=
  hexDigit_toNat _ (Nat.mod_lt _ (by decide))

/-- Bytes 0 to 3 of the text: '#', red, and green's high digit (40_codec R117). -/
theorem hexText_low (c : Rgb) :
    wordOfBytes 0x23 (hexHigh c.r) (hexLow c.r) (hexHigh c.g) =
      BitVec.ofNat 32 (0x23 + lowerHex (c.r.toNat / 16) * 2 ^ 8 + lowerHex (c.r.toNat % 16) * 2 ^ 16 +
        lowerHex (c.g.toNat / 16) * 2 ^ 24) := by
  rw [wordOfBytes_eq_ofNat, hexHigh_toNat, hexLow_toNat, hexHigh_toNat]
  rfl

/-- Bytes 4 to 7 of the text: green's low digit, blue, and a zero byte (40_codec R117). -/
theorem hexText_high (c : Rgb) :
    wordOfBytes (hexLow c.g) (hexHigh c.b) (hexLow c.b) 0x00 =
      BitVec.ofNat 32 (lowerHex (c.g.toNat % 16) + lowerHex (c.b.toNat / 16) * 2 ^ 8 + lowerHex (c.b.toNat % 16) * 2 ^ 16) := by
  have zero : (0x00 : Byte).toNat = 0 := rfl
  rw [wordOfBytes_eq_ofNat, hexLow_toNat, hexHigh_toNat, hexLow_toNat, zero, Nat.zero_mul, Nat.add_zero]

/-! ### Parsing a channel, and the whole string -/

theorem hexChannel_of_digits (r : OperandRegs) (k h l : Nat) (hh : IsHexDigit (hexByte r k) h) (hl : IsHexDigit (hexByte r (k + 1)) l) :
    ∃ c : Byte, hexChannel r k = .ok c ∧ c.toNat = 16 * h + l := by
  have := hh.lt
  have := hl.lt
  unfold hexChannel
  rw [(hexValue_eq_some_iff _ _).mpr hh, (hexValue_eq_some_iff _ _).mpr hl]
  exact ⟨_, rfl, Nat.mod_eq_of_lt (by omega)⟩

theorem hexChannel_of_bad_high (r : OperandRegs) (k : Nat) (hk : ∀ v, ¬ IsHexDigit (hexByte r k) v) : hexChannel r k = .error k := by
  unfold hexChannel
  rw [(hexValue_eq_none_iff _).mpr hk]

theorem hexChannel_of_bad_low (r : OperandRegs) (k h : Nat) (hh : IsHexDigit (hexByte r k) h)
    (hk : ∀ v, ¬ IsHexDigit (hexByte r (k + 1)) v) : hexChannel r k = .error (k + 1) := by
  unfold hexChannel
  rw [(hexValue_eq_some_iff _ _).mpr hh, (hexValue_eq_none_iff _).mpr hk]

/-- The two digits of a channel are read back as the channel. -/
theorem hexChannel_of_formatted (r : OperandRegs) (k : Nat) (c : Byte) (hh : hexByte r k = hexHigh c)
    (hl : hexByte r (k + 1) = hexLow c) : hexChannel r k = .ok c := by
  obtain ⟨d, hd, hv⟩ := hexChannel_of_digits r k _ _ (hh ▸ isHexDigit_hexHigh c) (hl ▸ isHexDigit_hexLow c)
  rw [Nat.div_add_mod, BitVec.toNat_inj] at hv
  rw [hd, hv]

theorem hexLength_eq_seven_iff (w : Word) : hexLength w = 7 ↔ w.extractLsb' 0 8 = 7 := by
  rw [← BitVec.toNat_inj]
  rfl

theorem parseHex_of_length (r : OperandRegs) (h : r.hexlen.extractLsb' 0 8 ≠ 7) : parseHex r = .error 0 :=
  if_pos (mt (hexLength_eq_seven_iff _).mp h)

section
variable (r : OperandRegs) (hlen : r.hexlen.extractLsb' 0 8 = 7)
include hlen

theorem parseHex_of_first_byte (h : hexByte r 0 ≠ 0x23) : parseHex r = .error 0 := by
  unfold parseHex
  rw [if_neg (not_not.mpr ((hexLength_eq_seven_iff _).mpr hlen)), if_pos h]

variable (hhash : hexByte r 0 = 0x23)
include hhash

/-- After the length and the '#', the channels in order; the first that fails ends the parse (40_codec R116). -/
theorem parseHex_eq_bind :
    parseHex r = (hexChannel r 1).bind fun cr => (hexChannel r 3).bind fun cg => (hexChannel r 5).map fun cb => ⟨cr, cg, cb⟩ := by
  unfold parseHex
  rw [if_neg (not_not.mpr ((hexLength_eq_seven_iff _).mpr hlen)), if_neg (not_not.mpr hhash)]
  cases hexChannel r 1 with
  | error k => rfl
  | ok cr =>
    cases hexChannel r 3 with
    | error k => rfl
    | ok cg => cases hexChannel r 5 <;> rfl

theorem parseHex_of_channels (c : Rgb) (h1 : hexChannel r 1 = .ok c.r) (h3 : hexChannel r 3 = .ok c.g) (h5 : hexChannel r 5 = .ok c.b) :
    parseHex r = .ok c := by
  rw [parseHex_eq_bind r hlen hhash, h1, h3, h5]
  rfl

/-- The first byte that is no digit is the one reported. -/
theorem parseHex_of_bad_digit (k : Nat) (h1 : 1 ≤ k) (h6 : k ≤ 6)
    (hgood : ∀ j, 1 ≤ j → j < k → ∃ v, IsHexDigit (hexByte r j) v) (hbad : ∀ v, ¬ IsHexDigit (hexByte r k) v) :
    parseHex r = .error k := by
  have channel (i : Nat) (hi : 1 ≤ i) (hk : i + 1 < k) : ∃ c, hexChannel r i = .ok c := by
    obtain ⟨h, hh⟩ := hgood i hi (by omega)
    obtain ⟨l, hl⟩ := hgood (i + 1) (by omega) hk
    obtain ⟨c, hc, -⟩ := hexChannel_of_digits r i h l hh hl
    exact ⟨c, hc⟩
  have failing (i : Nat) (hi : 1 ≤ i) (hk : k = i ∨ k = i + 1) : hexChannel r i = .error k := by
    obtain rfl | rfl := hk
    · exact hexChannel_of_bad_high r k hbad
    · obtain ⟨h, hh⟩ := hgood i hi (by omega)
      exact hexChannel_of_bad_low r i h hh hbad
  rw [parseHex_eq_bind r hlen hhash]
  obtain hk | hk | hk : (k = 1 ∨ k = 1 + 1) ∨ (k = 3 ∨ k = 3 + 1) ∨ (k = 5 ∨ k = 5 + 1) := by omega
  · rw [failing 1 (by omega) hk]
    rfl
  · obtain ⟨cr, hr⟩ := channel 1 (by omega) (by omega)
    rw [hr, failing 3 (by omega) hk]
    rfl
  · obtain ⟨cr, hr⟩ := channel 1 (by omega) (by omega)
    obtain ⟨cg, hg⟩ := channel 3 (by omega) (by omega)
    rw [hr, hg, failing 5 (by omega) hk]
    rfl

end

/-- Byte k of HEXIN when both registers are made of bytes (10_state R34). -/
theorem hexByte_of_wordOfBytes (r : OperandRegs) (b0 b1 b2 b3 b4 b5 b6 b7 : Byte) (h0 : r.hexin0 = wordOfBytes b0 b1 b2 b3)
    (h1 : r.hexin1 = wordOfBytes b4 b5 b6 b7) (k : Nat) (hk : k < 8) : hexByte r k = [b0, b1, b2, b3, b4, b5, b6, b7][k] := by
  unfold hexByte
  split
  · rename_i h
    rw [h0, extractLsb'_wordOfBytes b0 b1 b2 b3 k h]
    exact (List.getElem_append_left (bs := [b4, b5, b6, b7]) (as := [b0, b1, b2, b3]) h).symm
  · rename_i h
    rw [h1, extractLsb'_wordOfBytes b4 b5 b6 b7 (k - 4) (by omega)]
    exact (List.getElem_append_right (as := [b0, b1, b2, b3]) (bs := [b4, b5, b6, b7]) (Nat.le_of_not_lt h)).symm

/-! ### The four commands, outcome by outcome -/

theorem exec_pack_of_color (s : State) (c : Rgb) (h : readColor s.regs.colorRg s.regs.colorB = some c) :
    exec .pack s = State.finishWith .success { s with result565 := (packColor c).setWidth 32 } := by
  show execPack s = _
  unfold execPack
  rw [h]

theorem exec_pack_of_none (s : State) (h : readColor s.regs.colorRg s.regs.colorB = none) :
    exec .pack s = s.finishWith (.validation .color 0) := by
  show execPack s = _
  unfold execPack
  rw [h]

theorem exec_unpack (s : State) :
    exec .unpack s = State.finishWith .success { s with resultRgb := rgbWord (unpackColor (packedOperand s.regs.arg)) } := rfl

theorem exec_hex2rgb_of_ok (s : State) (c : Rgb) (h : parseHex s.regs = .ok c) :
    exec .hex2rgb s = State.finishWith .success { s with resultRgb := rgbWord c } := by
  show execHex2rgb s = _
  unfold execHex2rgb
  rw [h]

theorem exec_hex2rgb_of_error (s : State) (k : Nat) (h : parseHex s.regs = .error k) :
    exec .hex2rgb s = s.finishWith (.validation .hex (BitVec.ofNat 8 k)) := by
  show execHex2rgb s = _
  unfold execHex2rgb
  rw [h]

theorem exec_rgb2hex_of_color (s : State) (c : Rgb) (h : readColor s.regs.colorRg s.regs.colorB = some c) :
    exec .rgb2hex s = State.finishWith .success
      { s with
        hexout0 := wordOfBytes 0x23 (hexHigh c.r) (hexLow c.r) (hexHigh c.g)
        hexout1 := wordOfBytes (hexLow c.g) (hexHigh c.b) (hexLow c.b) 0x00 } := by
  show execRgb2hex s = _
  unfold execRgb2hex
  rw [h]

theorem exec_rgb2hex_of_none (s : State) (h : readColor s.regs.colorRg s.regs.colorB = none) :
    exec .rgb2hex s = s.finishWith (.validation .color 0) := by
  show execRgb2hex s = _
  unfold execRgb2hex
  rw [h]

/-- Success, when what the command wrote leaves PENDING alone. -/
theorem finishWith_success_of_pending (i : Instr) (s t : State) (ht : t.pending = s.pending) (hs : Latched i s) :
    t.finishWith .success = .next (Ended t (errValue 0 i.opcode.toNat 0 0)) := by
  have hl : Latched i t := by rwa [Latched, ht]
  exact State.finishWith_eq i t .success hl

/-- A failed parse at position k ends HEX2RGB with k in ERR.INDEX (log 25). -/
theorem exec_hex2rgb_ended_of_error (s : State) (k : Nat) (hs : Latched .hex2rgb s) (hk : k ≤ 6) (h : parseHex s.regs = .error k) :
    exec .hex2rgb s = .next (Ended s (errValue k 0x22 5 1)) := by
  have hi : (BitVec.ofNat 8 k).toNat = k := Nat.mod_eq_of_lt (by omega)
  rw [exec_hex2rgb_of_error s k h, State.finishWith_eq .hex2rgb s _ hs, Report.validation, hi]
  rfl

/-! ### The statements -/

/-- Settles O7, from the reader of the color operand and the packed word's value. -/
theorem packStoresQuantizedColor : Obligations.PackStoresQuantizedColor := by
  intro s hs
  refine ⟨fun c hc => ?_, fun hb => ?_⟩
  · rw [exec_pack_of_color s c (readColor_of_holds _ _ c hc), packColor_setWidth]
    exact finishWith_success_of_pending .pack s _ rfl hs
  · rw [exec_pack_of_none s (readColor_of_bad _ _ hb)]
    exact State.finishWith_eq .pack s _ hs

/-- Settles O8: the unpacked channels by their values. -/
theorem unpackExpandsFields : Obligations.UnpackExpandsFields := by
  intro s hs p r5 g6 b5
  have hp : (packedOperand s.regs.arg).toNat = p := packedOperand_toNat _
  rw [exec_unpack, rgbWord_eq_ofNat, unpackColor_r_toNat, unpackColor_g_toNat, unpackColor_b_toNat, hp]
  exact finishWith_success_of_pending .unpack s _ rfl hs

/-- Settles O9, one outcome of the parse for each clause. -/
theorem hexParsesOrNamesFirstBadDigit : Obligations.HexParsesOrNamesFirstBadDigit := by
  intro s hs len
  refine ⟨fun d hlen hhash hd => ?_, fun hlen => ?_, fun hlen hhash => ?_, fun k hlen hhash h1 h6 hgood hbad => ?_⟩
  · have channel (k : Nat) (h1 : 1 ≤ k) (h5 : k ≤ 5) : ∃ c : Byte, hexChannel s.regs k = .ok c ∧ c.toNat = 16 * d k + d (k + 1) :=
      hexChannel_of_digits s.regs k _ _ (hd k h1 (by omega)) (hd (k + 1) (by omega) (by omega))
    obtain ⟨cr, hr, er⟩ := channel 1 (by omega) (by omega)
    obtain ⟨cg, hg, eg⟩ := channel 3 (by omega) (by omega)
    obtain ⟨cb, hb, eb⟩ := channel 5 (by omega) (by omega)
    rw [exec_hex2rgb_of_ok s ⟨cr, cg, cb⟩ (parseHex_of_channels s.regs hlen hhash _ hr hg hb), rgbWord_eq_ofNat, er, eg, eb]
    exact finishWith_success_of_pending .hex2rgb s _ rfl hs
  · exact exec_hex2rgb_ended_of_error s 0 hs (by omega) (parseHex_of_length s.regs hlen)
  · exact exec_hex2rgb_ended_of_error s 0 hs (by omega) (parseHex_of_first_byte s.regs hlen hhash)
  · exact exec_hex2rgb_ended_of_error s k hs h6 (parseHex_of_bad_digit s.regs hlen hhash k h1 h6 hgood hbad)

/-- Settles O10: the two HEXOUT words by their bytes. -/
theorem hexFormatsLowercase : Obligations.HexFormatsLowercase := by
  intro s hs
  refine ⟨fun c hc => ?_, fun hb => ?_⟩
  · rw [exec_rgb2hex_of_color s c (readColor_of_holds _ _ c hc), hexText_low, hexText_high]
    exact finishWith_success_of_pending .rgb2hex s _ rfl hs
  · rw [exec_rgb2hex_of_none s (readColor_of_bad _ _ hb)]
    exact State.finishWith_eq .rgb2hex s _ hs

/-- Settles O11: byte by byte, the text that RGB2HEX wrote passes HEX2RGB's checks and each pair of digits is its channel. -/
theorem hexFormatThenParseRestoresColor : Obligations.HexFormatThenParseRestoresColor := by
  intro s t u c hc ht hlen h0 h1
  rw [exec_rgb2hex_of_color s c (readColor_of_holds _ _ c hc)] at ht
  cases ht
  have hbyte := hexByte_of_wordOfBytes u.regs _ _ _ _ _ _ _ _ h0 h1
  have hseven : u.regs.hexlen.extractLsb' 0 8 = 7 := by
    rw [hlen]
    rfl
  have hparse : parseHex u.regs = .ok c :=
    parseHex_of_channels u.regs hseven (hbyte 0 (by omega)) c
      (hexChannel_of_formatted _ 1 c.r (hbyte 1 (by omega)) (hbyte 2 (by omega)))
      (hexChannel_of_formatted _ 3 c.g (hbyte 3 (by omega)) (hbyte 4 (by omega)))
      (hexChannel_of_formatted _ 5 c.b (hbyte 5 (by omega)) (hbyte 6 (by omega)))
  exact ⟨_, exec_hex2rgb_of_ok u c hparse, rgbWord_eq_ofNat c⟩

end Sys2Proof.Machine
end

section
/-!
SUPPORT. The stages of a host command that waits for DEVICE, each as the step that takes it (60_exceptions R190; log 5); the gate, said once
for every command that has it (41_display_lifecycle R122); the outcomes of the lifecycle and configuration commands, and the statements about
them.
-/

namespace Sys2Proof.Machine

/-! ### A command that waits for DEVICE -/

/-- DEVICE's answer to any request of a host command is delivered (60_exceptions R198). -/
theorem answerIsDelivered_of_host (r : DevRequest) (s : State) (hp : s.pipe = .host) : AnswerIsDelivered r s := by
  intro hr a
  have hm : s.pipe.makes r = true := by rw [hp, makes_of_host]
  rw [next_eq_deliver, State.deliver, State.deviceAnswer, hr]
  exact if_pos hm

theorem next_cmdeng_of_cmdengNext (s : State) (o : Out) (h : s.cmdengNext = some o) : Next .cmdeng s = o := by
  rw [next_eq_deliver, State.deliver, State.cmdengStep, h]

/-- Once DEVICE has answered, CMDENG goes on (30_encoding R91 step 2). -/
theorem next_cmdeng_of_answer (s : State) (p : DevReply) (hp : s.pipe = .host) (ho : s.outcome = none) (ha : s.devAns = some p) :
    Next .cmdeng s = .next (s.resume p) := by
  refine next_cmdeng_of_cmdengNext s _ ?_
  rw [State.cmdengNext, hp, ho, ha]

/-- Once the execution is over, CMDENG completes the command with its report (30_encoding R91 step 3). -/
theorem next_cmdeng_of_outcome (i : Instr) (s : State) (r : Report) (hs : Latched i s) (hp : s.pipe = .host) (ho : s.outcome = some r) :
    Next .cmdeng s =
      .next (Completed s (errValue r.index.toNat i.opcode.toNat r.cause.toNat r.code.bits.toNat)) := by
  have hnext : s.cmdengNext = some (.next (s.completeStep r)) := by rw [State.cmdengNext, hp, ho]
  rw [next_cmdeng_of_cmdengNext s _ hnext, ← latchedOp_of_latched i s hs]
  exact congrArg Host.Outcome.next (State.complete_eq_ended { s with outcome := none } r)

theorem completesApart_of_host (i : Instr) (s : State) (hs : Latched i s) (hp : s.pipe = .host) : CompletesApart i s :=
  ⟨next_cmdeng_of_outcome i s .success hs hp, fun c => next_cmdeng_of_outcome i s (.deviceIo c) hs hp⟩

/-! ### The gate -/

/-- A command whose meaning is a body behind the gate is refused outside READY, whatever the body (41_display_lifecycle R122, R123). -/
theorem gateRefuses_of_exec_eq_gated (i : Instr) (body : State → Out) (h : ∀ s, exec i s = gated s (body s)) : GateRefuses i := by
  intro s hs
  have refused (hl : s.lifecycle ≠ .ready) : exec i s = .next (Ended s (errValue 0 i.opcode.toNat (lcause s.lifecycle).toNat 2)) := by
    rw [h s, gated_not_ready s _ hl, State.finishWith_eq i s _ hs]
    rfl
  refine ⟨fun hl => ?_, fun hl => ?_⟩
  · rw [refused (by simp [hl]), hl]
    rfl
  · rw [refused (by simp [hl]), hl]
    rfl

/-- Each of R122's commands is a body behind the gate: nothing of it runs before the gate has passed. -/
theorem exec_eq_gated (i : Instr)
    (hi : i ∈ [Instr.setrot, .setlowlight, .setpix, .getpix, .setpixs, .fill, .clear, .setmatrix, .getmatrix, .fliph, .flipv]) :
    ∃ body : State → Out, ∀ s, exec i s = gated s (body s) := by
  cases i with
  | setrot | setlowlight | setpix | getpix | setpixs | fill | clear | setmatrix | getmatrix | fliph | flipv => exact ⟨_, fun _ => rfl⟩
  | nop | init | close | pack | unpack | hex2rgb | rgb2hex | showmsg => simp at hi

/-- Settles O20: each of the commands is a body behind the gate. -/
theorem gatedCommandsNeedReady : Obligations.GatedCommandsNeedReady := by
  intro i hi
  obtain ⟨body, h⟩ := exec_eq_gated i hi
  exact gateRefuses_of_exec_eq_gated i body h

/-! ### The configuration operands -/

/-- A non-negative number of degrees is held exactly as the low half of ARG (30_encoding R98). -/
theorem rotationDegrees_eq_natCast_iff (arg : Word) (n : Nat) (hn : n < 32768) :
    rotationDegrees arg = (n : Int) ↔ arg.toNat % 65536 = n := by
  have hf := field_toNat arg 0 16
  simp only [rotationDegrees, BitVec.toInt_eq_toNat_cond]
  split <;> omega

theorem rotationCode_quarterTurns (k : Nat) (hk : k < 4) : rotationCode ((90 * k : Nat) : Int) = some (BitVec.ofNat 2 k) := by
  interval_cases k <;> rfl

theorem rotationCode_of_not_quarterTurns (d : Int) (h : ∀ k : Nat, k < 4 → d ≠ (90 * k : Nat)) : rotationCode d = none := by
  refine if_neg ?_
  rintro (hd | hd | hd | hd)
  · exact h 0 (by omega) hd
  · exact h 1 (by omega) hd
  · exact h 2 (by omega) hd
  · exact h 3 (by omega) hd

theorem lowlightOperand_eq (arg : Word) : lowlightOperand arg = decide (arg.toNat % 2 = 1) := Nat.testBit_zero arg.toNat

/-! ### The configuration commands in READY -/

theorem exec_setrot_of_code (s : State) (k : BitVec 2) (hl : s.lifecycle = .ready)
    (h : rotationCode (rotationDegrees s.regs.arg) = some k) : exec .setrot s = State.finishWith .success { s with rot := k } := by
  show execSetrot s = _
  rw [execSetrot, gated_ready s _ hl, h]

theorem exec_setrot_of_none (s : State) (hl : s.lifecycle = .ready) (h : rotationCode (rotationDegrees s.regs.arg) = none) :
    exec .setrot s = s.finishWith (.validation .rotation 0) := by
  show execSetrot s = _
  rw [execSetrot, gated_ready s _ hl, h]

theorem exec_setlowlight_of_ready (s : State) (hl : s.lifecycle = .ready) :
    exec .setlowlight s = State.finishWith .success { s with lowlight := lowlightOperand s.regs.arg } := gated_ready s _ hl

/-- Settles O18, from the degrees that ARG holds. -/
theorem setrotStoresQuarterTurns : Obligations.SetrotStoresQuarterTurns := by
  refine ⟨gatedCommandsNeedReady .setrot (by simp), fun s hs hl => ⟨fun k hk harg => ?_, fun harg => ?_⟩⟩
  · have hdeg := (rotationDegrees_eq_natCast_iff s.regs.arg (90 * k) (by omega)).mpr harg
    rw [exec_setrot_of_code s _ hl (hdeg ▸ rotationCode_quarterTurns k hk)]
    exact finishWith_success_of_pending .setrot s _ rfl hs
  · have hdeg (k : Nat) (hk : k < 4) : rotationDegrees s.regs.arg ≠ (90 * k : Nat) :=
      mt (rotationDegrees_eq_natCast_iff s.regs.arg (90 * k) (by omega)).mp (harg k hk)
    rw [exec_setrot_of_none s hl (rotationCode_of_not_quarterTurns _ hdeg)]
    exact State.finishWith_eq .setrot s _ hs

/-- Settles O19, from the bit that ARG holds. -/
theorem setlowlightTakesBitZero : Obligations.SetlowlightTakesBitZero := by
  refine ⟨gatedCommandsNeedReady .setlowlight (by simp), fun s hs hl => ?_⟩
  rw [exec_setlowlight_of_ready s hl, lowlightOperand_eq]
  exact finishWith_success_of_pending .setlowlight s _ rfl hs

/-! ### NOP, INIT and CLOSE -/

/-- Settles O15: NOP's ERR word, with opcode 0 and success, is 0. -/
theorem nopWritesOnlyErr : Obligations.NopWritesOnlyErr := fun s hs => State.finishWith_eq .nop s .success hs

theorem exec_init_of_uninit (s : State) (hl : s.lifecycle = .uninit) : exec .init s = .next (Waiting s .openDev) := by
  show execInit s = _
  rw [execInit, hl, State.await_eq_waiting]

theorem exec_init_of_not_uninit (s : State) (hl : s.lifecycle ≠ .uninit) : exec .init s = s.finishWith (.stateError s.lifecycle) := by
  show execInit s = _
  unfold execInit
  split <;> simp_all

/-- Settles O16: the execute step by the lifecycle state found, then each later stage. -/
theorem initOpensOnce : Obligations.InitOpensOnce := by
  intro s hs
  refine ⟨exec_init_of_uninit s, fun hl => ?_, fun hl => ?_, fun hp => ⟨answerIsDelivered_of_host _ s hp, fun ho ha => ?_,
    fun c ho ha => ?_, completesApart_of_host .init s hs hp⟩⟩
  · rw [exec_init_of_not_uninit s (by simp [hl]), hl]
    exact State.finishWith_eq .init s _ hs
  · rw [exec_init_of_not_uninit s (by simp [hl]), hl]
    exact State.finishWith_eq .init s _ hs
  · exact next_cmdeng_of_answer s _ hp ho ha
  · exact next_cmdeng_of_answer s _ hp ho ha

theorem exec_close_of_ready (s : State) (hl : s.lifecycle = .ready) : exec .close s = .next (Waiting s .closeDev) := by
  show execClose s = _
  rw [execClose, hl, State.await_eq_waiting]

theorem exec_close_of_closed (s : State) (hl : s.lifecycle = .closed) : exec .close s = s.finishWith .success := by
  show execClose s = _
  rw [execClose, hl]

theorem exec_close_of_uninit (s : State) (hl : s.lifecycle = .uninit) : exec .close s = s.finishWith (.stateError .uninit) := by
  show execClose s = _
  rw [execClose, hl]

/-- Settles O17: the execute step by the lifecycle state found, then each later stage. -/
theorem closeIsTerminalAndIdempotent : Obligations.CloseIsTerminalAndIdempotent := by
  intro s hs
  refine ⟨exec_close_of_ready s, fun hl => ?_, fun hl => ?_, fun hp => ⟨answerIsDelivered_of_host _ s hp, fun ho ha => ?_,
    fun c ho ha => ?_, completesApart_of_host .close s hs hp⟩⟩
  · rw [exec_close_of_closed s hl]
    exact State.finishWith_eq .close s _ hs
  · rw [exec_close_of_uninit s hl]
    exact State.finishWith_eq .close s _ hs
  · exact next_cmdeng_of_answer s _ hp ho ha
  · exact next_cmdeng_of_answer s _ hp ho ha

end Sys2Proof.Machine
end

section
/-!
SUPPORT. The rotation engine (42_display_pixels R132-R135): rotate as its four cases, its powers, and phys as a permutation; and the statement
about them.
-/

namespace Sys2Proof.Machine

/-! ### The four rotations -/

theorem rotate_zero (p : Pos) : rotate 0 p = p := rfl

theorem rotate_one (p : Pos) : rotate 1 p = ⟨7 - p.y, p.x⟩ := rfl

theorem rotate_two (p : Pos) : rotate 2 p = ⟨7 - p.x, 7 - p.y⟩ := rfl

theorem rotate_three (p : Pos) : rotate 3 p = ⟨p.y, 7 - p.x⟩ := rfl

/-- The mirror of a coordinate is `7 - c` without wrapping. -/
theorem val_seven_sub (c : Fin 8) : (7 - c).val = 7 - c.val := by
  revert c; decide

/-- Mirroring a coordinate twice restores it. -/
theorem seven_sub_seven_sub (c : Fin 8) : 7 - (7 - c) = c := sub_sub_cancel 7 c

/-- A half turn twice is the identity (42_display_pixels R135). -/
theorem rotate_two_rotate_two (p : Pos) : rotate 2 (rotate 2 p) = p := by
  simp only [rotate_two, seven_sub_seven_sub]

/-- 270 degrees undo 90 (42_display_pixels R135). -/
theorem rotate_three_rotate_one (p : Pos) : rotate 3 (rotate 1 p) = p := by
  simp only [rotate_one, rotate_three, seven_sub_seven_sub]

theorem rotate_one_rotate_one (p : Pos) : rotate 1 (rotate 1 p) = rotate 2 p := rfl

theorem rotate_three_rotate_three (p : Pos) : rotate 3 (rotate 3 p) = rotate 2 p := rfl

/-- Any rotation four times is the identity: the quarter turns twice are the half turn (42_display_pixels R135). -/
theorem rotate_four_times (k : BitVec 2) (p : Pos) : rotate k (rotate k (rotate k (rotate k p))) = p := by
  match k with
  | 0 => rfl
  | 1 => simp only [rotate_one_rotate_one, rotate_two_rotate_two]
  | 2 => simp only [rotate_two_rotate_two]
  | 3 => simp only [rotate_three_rotate_three, rotate_two_rotate_two]

/-! ### The physical index -/

/-- Every one of the 64 indices is the index of a position: three more turns go back to the logical one (42_display_pixels R135). -/
theorem physIndex_surjective (k : BitVec 2) (i : Nat) (hi : i < 64) : ∃ q, physIndex k q = i := by
  refine ⟨rotate k (rotate k (rotate k (posOfEntry i))), ?_⟩
  rw [physIndex, rotate_four_times, pixelIndex, posOfEntry_entry i hi]

/-- Settles O21: the table is the four cases of rotate, and the turns compose to the identity. -/
theorem rotationMapsAndPermutes : Obligations.RotationMapsAndPermutes := by
  refine ⟨fun x y => ⟨rotate_zero _, ?_, ?_, ?_, rfl⟩, fun k p => ⟨rotate_four_times k p, rotate_three_rotate_one p,
    rotate_two_rotate_two p, physIndex_lt k p, physIndex_injective k p, physIndex_surjective k⟩⟩
  · rw [rotate_one]
    exact ⟨val_seven_sub y, rfl⟩
  · rw [rotate_two]
    exact ⟨val_seven_sub x, val_seven_sub y⟩
  · rw [rotate_three]
    exact ⟨rfl, val_seven_sub x⟩

end Sys2Proof.Machine
end

section
/-!
SUPPORT. The flush of a host command: its request as the step CMDENG takes, and which commands make one due (42_display_pixels R149, R150;
20_memory R76, R80; log 5, log 6); and the statement that counts them.
-/

namespace Sys2Proof.Machine

/-! ### The request -/

/-- A flush that is due is requested in CMDENG's next step (20_memory R76, R80). -/
theorem next_cmdeng_of_due (s : State) (hp : s.pipe = .host) (ho : s.outcome = none) (ha : s.devAns = none) (hf : s.flushDue = true)
    (hd : s.devReq = none) : Next .cmdeng s = .next s.requestFlush := by
  refine next_cmdeng_of_cmdengNext s _ ?_
  rw [State.cmdengNext, hp, ho, ha, flushNext_of_due s hf hd]
  rfl

/-- The rest of a flushing command, stage by stage (42_display_pixels R150, 60_exceptions R190). -/
theorem flushesThenCompletes (i : Instr) : FlushesThenCompletes i := fun s b hs hp =>
  ⟨fun ho hf hd ha => next_cmdeng_of_due s hp ho ha hf hd, answerIsDelivered_of_host (.write b) s hp,
    next_cmdeng_of_answer s _ hp, fun _ => next_cmdeng_of_answer s _ hp, completesApart_of_host i s hs hp⟩

/-! ### Which commands make a flush due -/

/-- What a command writes before it ends with success is no stage of the pipeline. -/
theorem Ending.sameStage {i : Instr} {s u : State} (h : Ending i s u) : SameStage s u := by
  cases h with
  | message len tc bc => exact .of_eq (State.acceptMessage_writes Config.cancelReports len tc bc s) ⟨rfl, rfl, rfl⟩
  | _ => exact ⟨rfl, rfl, rfl⟩

/-- A command that ends with success in its execute step is none of the seven that flush (42_display_pixels R149). -/
theorem Ending.not_flushing {i : Instr} {s u : State} (h : Ending i s u) :
    i ∉ [Instr.setpix, .setpixs, .fill, .clear, .setmatrix, .fliph, .flipv] := by
  cases h with
  | unchanged hi => rcases hi with rfl | ⟨rfl, -⟩ <;> simp
  | rgb c hi => rcases hi with rfl | rfl | ⟨rfl, -⟩ <;> simp
  | packed _ hi | hex _ _ _ _ _ _ _ hi | rotation _ hi | lowlight _ hi | matrix hi | message _ _ _ hi =>
    subst hi
    simp

/-- ERR.CODE is the report's code (10_state R27). -/
theorem extractLsb'_errWord (op : Byte) (r : Report) : (errWord op r).extractLsb' 0 4 = r.code.bits := by
  apply BitVec.eq_of_toNat_eq
  rw [field_toNat, errWord_toNat]
  have := r.code.bits.isLt
  omega

theorem bits_ne_zero_of_error (c : ErrCode) (h : c = .validation ∨ c = .state) : c.bits ≠ 0 := by
  rcases h with rfl | rfl <;> decide

/-- One of the seven commands that flush either leaves its flush due, or fails with no pixel written (42_display_pixels R149). -/
theorem ExecResult.flushes_or_fails {i : Instr} {s t : State} (h : ExecResult i s t)
    (hi : i ∈ [Instr.setpix, .setpixs, .fill, .clear, .setmatrix, .fliph, .flipv]) :
    (t.pipe = .host ∧ t.flushDue = true ∧ t.devReq = s.devReq) ∨
    (t.pipe = .free ∧ t.flushDue = s.flushDue ∧ t.devReq = s.devReq ∧ t.mem = s.mem ∧ t.err.extractLsb' 0 4 ≠ 0) := by
  cases h with
  | flush => exact .inl ⟨rfl, rfl, rfl⟩
  | error r hr =>
    refine .inr ⟨rfl, rfl, rfl, rfl, ?_⟩
    rw [State.complete_err, extractLsb'_errWord]
    exact bits_ne_zero_of_error r.code hr
  | success u hu => exact absurd hi hu.not_flushing
  | opening hi' | closing hi' =>
    subst hi'
    simp at hi

/-- A command that neither flushes nor asks DEVICE ends in its execute step, its pipeline stage unchanged (42_display_pixels R149). -/
theorem ExecResult.ends_without_flush {i : Instr} {s t : State} (h : ExecResult i s t)
    (hi : i ∈ [Instr.getpix, .getmatrix, .setrot, .setlowlight, .nop, .pack, .unpack, .hex2rgb, .rgb2hex, .showmsg]) :
    t.pipe = .free ∧ t.flushDue = s.flushDue ∧ t.devReq = s.devReq := by
  cases h with
  | error => exact ⟨rfl, rfl, rfl⟩
  | success u hu => exact ⟨rfl, hu.sameStage.flushDue, hu.sameStage.devReq⟩
  | flush _ _ _ hi' => cases i <;> simp at hi hi'
  | opening hi' | closing hi' =>
    subst hi'
    simp at hi

/-- With no flush due, no step of CMDENG in a command's progress makes a request (20_memory R85). -/
theorem next_cmdeng_of_not_due (s t : State) (hp : s.pipe = .host) (hf : s.flushDue = false) (h : Next .cmdeng s = .next t) :
    t.flushDue = false ∧ t.devReq = s.devReq := by
  cases hn : s.cmdengNext with
  | none =>
    rw [next_eq_deliver, State.deliver, State.cmdengStep, hn] at h
    cases h
    exact ⟨hf, rfl⟩
  | some o =>
    rw [next_cmdeng_of_cmdengNext s o hn] at h
    cases cmdengNext_cases s o hn with
    | execute _ hp' => simp [hp] at hp'
    | request _ _ _ hf' => simp [hf] at hf'
    | complete r =>
      cases h
      exact ⟨hf, rfl⟩
    | resume p =>
      cases h
      have hr := resume_cases s p
      generalize s.resume p = u at hr
      cases hr <;> exact ⟨hf, rfl⟩

/-- The buffer that a flush sends is 128 bytes (20_memory R72). -/
theorem State.length_fbBytes (s : State) : s.fbBytes.length = 128 := by
  rw [State.fbBytes, List.length_map, List.length_range]
  rfl

/-- Settles O32: the shapes of the execute step, then CMDENG's steps with a flush due and with none. -/
theorem flushCountIsOneOrNone : Obligations.FlushCountIsOneOrNone := by
  refine ⟨fun i s t h => ?_, fun s hp ho ha hd hf => ?_, next_cmdeng_of_not_due⟩
  · have hx := execResult_of_exec i s t h
    exact ⟨hx.flushes_or_fails, hx.ends_without_flush⟩
  · exact ⟨s.requestFlush, next_cmdeng_of_due s hp ho ha hf hd, rfl, rfl, s.length_fbBytes⟩

end Sys2Proof.Machine
end

section
/-!
SUPPORT. What a write of pixels leaves in memory, on top of Laws/Memory and Laws/Ops: a list of entries of which the last for an index wins,
a whole grid; and when two memories with the same framebuffer are the same data.
-/

namespace Sys2Proof.Machine

/-! ### A list of entries -/

/-- Of the entries numbered below `n`, the last one for its index is the one that stays (42_display_pixels R141). -/
theorem Memory.pixel_setPixels_range_last (m : Memory) (n j : Nat) (f : Nat → Nat) (g : Nat → Half) (hj : j < n)
    (h : ∀ k < n, j < k → f k ≠ f j) : (m.setPixels ((List.range n).map (fun k => (f k, g k)))).pixel (f j) = g j := by
  rw [range_eq_append n j hj, List.map_append, List.map_cons]
  refine Memory.pixel_setPixels_last m _ _ (f j) (g j) fun q hq => ?_
  simp only [List.map_map, List.mem_map, List.mem_range] at hq
  obtain ⟨d, hd, rfl⟩ := hq
  exact h (j + (d + 1)) (by omega) (by omega)

/-- The entries of a batch, each at the rotated index of its position (42_display_pixels R137). -/
theorem State.transform_range (s : State) (n : Nat) (p : Nat → Pos) (c : Nat → Rgb) :
    s.transform ((List.range n).map (fun j => (p j, c j))) =
      (List.range n).map (fun j => (physIndex s.rot (p j), writeTransform (c j) s.lowlight)) := List.map_map

/-! ### A whole grid -/

/-- The memory that a grid written through the rotation and low-light pipeline leaves (42_display_pixels R137, R144). -/
def State.gridMemory (s : State) (g : Pos → Rgb) : Memory :=
  s.mem.setPixels (allPositions.map (fun p => (physIndex s.rot p, writeTransform (g p) s.lowlight)))

theorem State.flush_putGrid_eq_flushing (s : State) (g : Pos → Rgb) : (s.putGrid g).flush = Flushing s (s.gridMemory g) :=
  State.flush_putGrid g s

theorem State.pixel_gridMemory (s : State) (g : Pos → Rgb) (p : Pos) :
    (s.gridMemory g).pixel (physIndex s.rot p) = writeTransform (g p) s.lowlight :=
  Memory.pixel_grid s.mem s.rot s.lowlight g p

theorem State.sameOutside_gridMemory (s : State) (g : Pos → Rgb) : SameOutsideFramebuffer s.mem (s.gridMemory g) :=
  sameOutside_grid s.mem s.rot _

theorem State.wf_gridMemory (s : State) (g : Pos → Rgb) (h : s.mem.wf) : (s.gridMemory g).wf := Memory.wf_setPixels _ _ h

/-- Entries 0 to 63 of a staged grid are the grid's positions, row by row (10_state R38, 42_display_pixels R144). -/
theorem State.putColors_entries (s : State) (c : Nat → Rgb) :
    s.putColors ((List.range Config.pixelCount).map (fun e => (posOfEntry e, c e))) =
      s.putGrid (fun p => c (8 * p.y.val + p.x.val)) := by
  rw [State.putGrid, allPositions, List.map_map]
  refine congrArg (fun ws => State.putColors ws s) (List.map_congr_left fun e he => ?_)
  rw [Function.comp_apply, posOfEntry_entry e (List.mem_range.mp he)]

/-! ### Memories with the same framebuffer -/

/-- The low byte of a pixel word stands first (20_memory R72). -/
theorem Memory.readByte_pixel_low (m : Memory) (i : Nat) : m.readByte (fbBase + 2 * i) = (m.pixel i).extractLsb' 0 8 := by
  apply BitVec.eq_of_toNat_eq
  rw [halfField_toNat, Memory.pixel, Memory.readHalf, toNat_cat2]
  omega

theorem Memory.readByte_pixel_high (m : Memory) (i : Nat) : m.readByte (fbBase + 2 * i + 1) = (m.pixel i).extractLsb' 8 8 := by
  apply BitVec.eq_of_toNat_eq
  rw [halfField_toNat, Memory.pixel, Memory.readHalf, toNat_cat2]
  omega

/-- Canonical memories with the same 64 pixel words and the same bytes elsewhere are the same data. -/
theorem Memory.eq_of_pixel_eq (m m' : Memory) (h : m.wf) (h' : m'.wf) (ho : SameOutsideFramebuffer m m')
    (hp : ∀ i < 64, m'.pixel i = m.pixel i) : m' = m := by
  refine Memory.eq_of_readByte_eq m' m h' h fun a => ?_
  by_cases ha : framebufferOffset a
  · have ⟨i, hi, hai⟩ : ∃ i < 64, a = fbBase + 2 * i ∨ a = fbBase + 2 * i + 1 :=
      ⟨(a - fbBase) / 2, by unfold framebufferOffset at ha; unfold fbBase; omega,
        by unfold framebufferOffset at ha; unfold fbBase; omega⟩
    rcases hai with rfl | rfl
    · rw [Memory.readByte_pixel_low, Memory.readByte_pixel_low, hp i hi]
    · rw [Memory.readByte_pixel_high, Memory.readByte_pixel_high, hp i hi]
  · exact ho a ha

end Sys2Proof.Machine
end

section
/-!
SUPPORT. The staged operands of the batch and grid commands, entry by entry (30_encoding R99; 42_display_pixels R141, R144).
-/

namespace Sys2Proof.Machine

/-! ### BATCH entries -/

theorem batchCount_eq (arg : Word) : batchCount arg = arg.toNat % 65536 := packedOperand_toNat arg

/-- The color words of BATCH entry j stand 4 and 8 bytes after its position word (10_state R40). -/
theorem batchColor_eq (m : Memory) (j : Nat) : batchColor m j = readColor (m.readWord (0x804 + 16 * j)) (m.readWord (0x808 + 16 * j)) := by
  rw [batchColor, batchBase, show 0x800 + 16 * j + 4 = 0x804 + 16 * j by omega, show 0x800 + 16 * j + 8 = 0x808 + 16 * j by omega]

theorem batchEntry_of_holds (m : Memory) (j : Nat) (p : Pos) (c : Rgb) (hp : HoldsPos (m.readWord (0x800 + 16 * j)) p)
    (hc : HoldsColor (m.readWord (0x804 + 16 * j)) (m.readWord (0x808 + 16 * j)) c) : batchEntry m j = .ok (p, c) := by
  have hpos : batchPos m j = some p := readPos_of_holds _ p hp
  rw [batchEntry, hpos, batchColor_eq, readColor_of_holds _ _ c hc]

/-- An entry out of range nowhere is read. -/
theorem batchEntry_of_not_bad (m : Memory) (j : Nat) (hp : ¬ BadPos (m.readWord (0x800 + 16 * j)))
    (hc : ¬ BadColor (m.readWord (0x804 + 16 * j)) (m.readWord (0x808 + 16 * j))) : ∃ a, batchEntry m j = .ok a := by
  obtain ⟨p, hp, -⟩ := readPos_of_not_bad _ hp
  obtain ⟨c, hc, -⟩ := readColor_of_not_bad _ _ hc
  exact ⟨_, batchEntry_of_holds m j p c hp hc⟩

/-- An entry's position is checked before its color (42_display_pixels R141). -/
theorem batchEntry_of_badPos (m : Memory) (j : Nat) (h : BadPos (m.readWord (0x800 + 16 * j))) : batchEntry m j = .error .position := by
  have hpos : batchPos m j = none := readPos_of_bad _ h
  rw [batchEntry, hpos]

theorem batchEntry_of_badColor (m : Memory) (j : Nat) (hp : ¬ BadPos (m.readWord (0x800 + 16 * j)))
    (hc : BadColor (m.readWord (0x804 + 16 * j)) (m.readWord (0x808 + 16 * j))) : batchEntry m j = .error .color := by
  obtain ⟨p, -, hpos⟩ := readPos_of_not_bad _ hp
  replace hpos : batchPos m j = some p := hpos
  rw [batchEntry, hpos, batchColor_eq, readColor_of_bad _ _ hc]

/-! ### The staged grid -/

theorem shapeRows_eq (mshape : Word) : shapeRows mshape = mshape.toNat % 256 := by
  rw [shapeRows, field_toNat, Nat.pow_zero, Nat.div_one]
  rfl

/-- The eight row lengths are all of ROWLEN (10_state R31). -/
theorem rowlen_eq_of_rowLength_eq (v w : Word) (h : ∀ i < 8, rowLength v i = rowLength w i) : v = w := by
  apply BitVec.eq_of_getLsbD_eq
  intro k hk
  have hdigit : v.extractLsb' (4 * (k / 4)) 4 = w.extractLsb' (4 * (k / 4)) 4 := BitVec.eq_of_toNat_eq (h (k / 4) (by omega))
  have hbit := congrArg (BitVec.getLsbD · (k % 4)) hdigit
  have hk4 : k % 4 < 4 := by omega
  simpa only [BitVec.getLsbD_extractLsb', hk4, decide_true, Bool.true_and, Nat.div_add_mod] using hbit

theorem rowLengths_eq_eight_iff (rowlen : Word) : (∀ i < 8, rowLength rowlen i = 8) ↔ rowlen = 0x88888888 := by
  have eights : ∀ i < 8, rowLength 0x88888888 i = 8 := by decide
  refine ⟨fun h => rowlen_eq_of_rowLength_eq _ _ fun i hi => ?_, ?_⟩
  · rw [h i hi, eights i hi]
  · rintro rfl
    exact eights

/-- The shape check passes exactly for 8 rows of 8 (42_display_pixels R144). -/
theorem shapeValid_iff (mshape rowlen : Word) : shapeValid mshape rowlen = true ↔ mshape.toNat % 256 = 8 ∧ rowlen = 0x88888888 := by
  rw [← shapeRows_eq, ← rowLengths_eq_eight_iff]
  simp only [shapeValid, Bool.and_eq_true, decide_eq_true_eq, List.all_eq_true, List.mem_range]

/-- The second word of MSTAGE entry e stands 4 bytes after its first (10_state R38). -/
theorem stagedColor_eq (m : Memory) (e : Nat) : stagedColor m e = readColor (m.readWord (0x200 + 8 * e)) (m.readWord (0x204 + 8 * e)) := by
  rw [stagedColor, mstageBase, show 0x200 + 8 * e + 4 = 0x204 + 8 * e by omega]

theorem stagedEntry_of_holds (m : Memory) (e : Nat) (c : Rgb) (h : HoldsColor (m.readWord (0x200 + 8 * e)) (m.readWord (0x204 + 8 * e)) c) :
    stagedEntry m e = .ok (posOfEntry e, c) := by
  rw [stagedEntry, stagedColor_eq, readColor_of_holds _ _ c h]

theorem stagedEntry_of_not_bad (m : Memory) (e : Nat) (h : ¬ BadColor (m.readWord (0x200 + 8 * e)) (m.readWord (0x204 + 8 * e))) :
    ∃ a, stagedEntry m e = .ok a := by
  obtain ⟨c, hc, -⟩ := readColor_of_not_bad _ _ h
  exact ⟨_, stagedEntry_of_holds m e c hc⟩

theorem stagedEntry_of_bad (m : Memory) (e : Nat) (h : BadColor (m.readWord (0x200 + 8 * e)) (m.readWord (0x204 + 8 * e))) :
    stagedEntry m e = .error .color := by
  rw [stagedEntry, stagedColor_eq, readColor_of_bad _ _ h]

end Sys2Proof.Machine
end

section
/-!
SUPPORT. The pixel commands but for the flips, outcome by outcome, and the statements about them (42_display_pixels R139-R145).
-/

namespace Sys2Proof.Machine

/-- A command that a check ends, with the number of the bad entry in ERR.INDEX (60_exceptions R180, R185). -/
theorem finishWith_validation_eq (i : Instr) (s : State) (c : ValidationCause) (k : Nat) (hk : k < 256) (hs : Latched i s) :
    s.finishWith (.validation c (BitVec.ofNat 8 k)) = .next (Ended s (errValue k i.opcode.toNat c.bits.toNat 1)) := by
  have hi : (BitVec.ofNat 8 k).toNat = k := Nat.mod_eq_of_lt hk
  rw [State.finishWith_eq i s _ hs, Report.validation, hi]
  rfl

/-! ### SETPIX and GETPIX -/

theorem exec_setpix_of_operands (s : State) (p : Pos) (c : Rgb) (hl : s.lifecycle = .ready) (hp : readPos s.regs.pos = some p)
    (hc : readColor s.regs.colorRg s.regs.colorB = some c) :
    exec .setpix s = .next (Flushing s (s.mem.setPixel (physIndex s.rot p) (writeTransform c s.lowlight))) := by
  show execSetpix s = _
  rw [execSetpix, gated_ready s _ hl, hp, hc]
  rfl

theorem exec_setpix_of_no_position (s : State) (hl : s.lifecycle = .ready) (hp : readPos s.regs.pos = none) :
    exec .setpix s = s.finishWith (.validation .position 0) := by
  show execSetpix s = _
  rw [execSetpix, gated_ready s _ hl, hp]

theorem exec_setpix_of_no_color (s : State) (p : Pos) (hl : s.lifecycle = .ready) (hp : readPos s.regs.pos = some p)
    (hc : readColor s.regs.colorRg s.regs.colorB = none) : exec .setpix s = s.finishWith (.validation .color 0) := by
  show execSetpix s = _
  rw [execSetpix, gated_ready s _ hl, hp, hc]

/-- Settles O22, one outcome of the two operand checks for each clause. -/
theorem setpixWritesOnePixel : Obligations.SetpixWritesOnePixel := by
  refine ⟨gatedCommandsNeedReady .setpix (by simp), flushesThenCompletes .setpix,
    fun s hs hl => ⟨fun p c hp hc => ?_, fun hp => ?_, fun hp hc => ?_⟩⟩
  · refine ⟨_, exec_setpix_of_operands s p c hl (readPos_of_holds _ p hp) (readColor_of_holds _ _ c hc), ?_,
      fun a => Memory.readByte_setPixel_other _ _ a _⟩
    rw [Memory.pixel_setPixel, if_pos rfl]
  · rw [exec_setpix_of_no_position s hl (readPos_of_bad _ hp)]
    exact finishWith_validation_eq .setpix s .position 0 (by omega) hs
  · obtain ⟨p, -, hp⟩ := readPos_of_not_bad _ hp
    rw [exec_setpix_of_no_color s p hl hp (readColor_of_bad _ _ hc)]
    exact finishWith_validation_eq .setpix s .color 0 (by omega) hs

theorem exec_getpix_of_position (s : State) (p : Pos) (hl : s.lifecycle = .ready) (hp : readPos s.regs.pos = some p) :
    exec .getpix s = State.finishWith .success { s with resultRgb := rgbWord (s.getPixel p) } := by
  show execGetpix s = _
  rw [execGetpix, gated_ready s _ hl, hp]

theorem exec_getpix_of_no_position (s : State) (hl : s.lifecycle = .ready) (hp : readPos s.regs.pos = none) :
    exec .getpix s = s.finishWith (.validation .position 0) := by
  show execGetpix s = _
  rw [execGetpix, gated_ready s _ hl, hp]

/-- Settles O23, from the reader of the position operand and the value of the RESULT_RGB word. -/
theorem getpixReadsStoredColor : Obligations.GetpixReadsStoredColor := by
  refine ⟨gatedCommandsNeedReady .getpix (by simp), fun s hs hl => ⟨fun p hp => ?_, fun hp => ?_⟩⟩
  · rw [exec_getpix_of_position s p hl (readPos_of_holds _ p hp), rgbWord_eq_ofNat]
    exact finishWith_success_of_pending .getpix s _ rfl hs
  · rw [exec_getpix_of_no_position s hl (readPos_of_bad _ hp)]
    exact finishWith_validation_eq .getpix s .position 0 (by omega) hs

/-! ### SETPIXS -/

theorem exec_setpixs_of_long (s : State) (hl : s.lifecycle = .ready) (hn : 64 < batchCount s.regs.arg) :
    exec .setpixs s = s.finishWith (.validation .length 0) := (gated_ready s _ hl).trans (if_pos hn)

theorem exec_setpixs_of_checked (s : State) (ws : List (Pos × Rgb)) (hl : s.lifecycle = .ready) (hn : batchCount s.regs.arg ≤ 64)
    (h : checkEntries (batchEntry s.mem) (List.range (batchCount s.regs.arg)) = .ok ws) :
    exec .setpixs s = .next (s.putColors ws).flush := by
  refine (gated_ready s _ hl).trans ((if_neg (Nat.not_lt.mpr hn)).trans ?_)
  rw [h]

theorem exec_setpixs_of_error (s : State) (r : Report) (hl : s.lifecycle = .ready) (hn : batchCount s.regs.arg ≤ 64)
    (h : checkEntries (batchEntry s.mem) (List.range (batchCount s.regs.arg)) = .error r) : exec .setpixs s = s.finishWith r := by
  refine (gated_ready s _ hl).trans ((if_neg (Nat.not_lt.mpr hn)).trans ?_)
  rw [h]

/-- A batch of good entries is written in order (42_display_pixels R141). -/
theorem exec_setpixs_of_ok (s : State) (p : Nat → Pos) (c : Nat → Rgb) (hl : s.lifecycle = .ready) (hn : batchCount s.regs.arg ≤ 64)
    (h : ∀ j < batchCount s.regs.arg, batchEntry s.mem j = .ok (p j, c j)) :
    exec .setpixs s = .next (Flushing s (s.mem.setPixels ((List.range (batchCount s.regs.arg)).map
      (fun j => (physIndex s.rot (p j), writeTransform (c j) s.lowlight))))) := by
  have hall := checkEntries_of_ok (batchEntry s.mem) (fun j => (p j, c j)) _ fun j hj => h j (List.mem_range.mp hj)
  rw [exec_setpixs_of_checked s _ hl hn hall, State.flush_putColors, State.transform_range]

/-- The first bad entry ends the batch with its number and its first failing check (42_display_pixels R141). -/
theorem exec_setpixs_of_bad_entry (s : State) (j : Nat) (v : ValidationCause) (hs : Latched .setpixs s) (hl : s.lifecycle = .ready)
    (hn : batchCount s.regs.arg ≤ 64) (hj : j < batchCount s.regs.arg) (hgood : ∀ k < j, ∃ a, batchEntry s.mem k = .ok a)
    (hbad : batchEntry s.mem j = .error v) : exec .setpixs s = .next (Ended s (errValue j 0x12 v.bits.toNat 1)) := by
  rw [exec_setpixs_of_error s _ hl hn (checkEntries_range_of_error (batchEntry s.mem) _ j v hj hgood hbad)]
  exact finishWith_validation_eq .setpixs s v j (by omega) hs

/-- Settles O24: a good batch by its list of pixel words, a bad one by the first check that fails. -/
theorem setpixsWritesWholeBatchOrNothing : Obligations.SetpixsWritesWholeBatchOrNothing := by
  refine ⟨gatedCommandsNeedReady .setpixs (by simp), flushesThenCompletes .setpixs, fun s hs hl => ?_⟩
  rw [← batchCount_eq]
  refine ⟨fun p c hn h => ?_, fun hn => ?_, fun j hj hn hgood => ?_⟩
  · refine ⟨_, exec_setpixs_of_ok s p c hl hn fun j hj => batchEntry_of_holds _ j _ _ (h j hj).1 (h j hj).2,
      fun j => Memory.pixel_setPixels_range_last _ _ j _ (fun j => writeTransform (c j) s.lowlight), fun a ha => ?_⟩
    refine Memory.readByte_setPixels_other _ _ a fun q hq => ?_
    obtain ⟨j, hj, rfl⟩ := List.mem_map.mp hq
    exact ha j (List.mem_range.mp hj)
  · rw [exec_setpixs_of_long s hl hn]
    exact finishWith_validation_eq .setpixs s .length 0 (by omega) hs
  · have hgood (k : Nat) (hk : k < j) := batchEntry_of_not_bad s.mem k (hgood k hk).1 (hgood k hk).2
    exact ⟨fun hp => exec_setpixs_of_bad_entry s j .position hs hl hn hj hgood (batchEntry_of_badPos _ j hp),
      fun hp hc => exec_setpixs_of_bad_entry s j .color hs hl hn hj hgood (batchEntry_of_badColor _ j hp hc)⟩

/-! ### FILL and CLEAR -/

theorem exec_fill_of_color (s : State) (c : Rgb) (hl : s.lifecycle = .ready) (hc : readColor s.regs.colorRg s.regs.colorB = some c) :
    exec .fill s = .next (s.fillPixels (writeTransform c s.lowlight)).flush := by
  show execFill s = _
  rw [execFill, gated_ready s _ hl, hc]

theorem exec_fill_of_no_color (s : State) (hl : s.lifecycle = .ready) (hc : readColor s.regs.colorRg s.regs.colorB = none) :
    exec .fill s = s.finishWith (.validation .color 0) := by
  show execFill s = _
  rw [execFill, gated_ready s _ hl, hc]

/-- Settles O25, from the reader of the color operand and the memory a fill leaves. -/
theorem fillWritesEveryPixel : Obligations.FillWritesEveryPixel := by
  refine ⟨gatedCommandsNeedReady .fill (by simp), flushesThenCompletes .fill, fun s hs hl => ⟨fun c hc => ?_, fun hc => ?_⟩⟩
  · rw [exec_fill_of_color s c hl (readColor_of_holds _ _ c hc), State.flush_fillPixels]
    exact ⟨_, rfl, Memory.pixel_fill s.mem _, sameOutside_fill s.mem _⟩
  · rw [exec_fill_of_no_color s hl (readColor_of_bad _ _ hc)]
    exact finishWith_validation_eq .fill s .color 0 (by omega) hs

theorem exec_clear_of_ready (s : State) (hl : s.lifecycle = .ready) :
    exec .clear s = .next (s.fillPixels (writeTransform ⟨0, 0, 0⟩ s.lowlight)).flush := gated_ready s _ hl

/-- OFF is the word 0x0000 with low-light or without (42_display_pixels R143, R151). -/
theorem writeTransform_off (low : Bool) : writeTransform ⟨0, 0, 0⟩ low = 0 := by
  cases low <;> rfl

theorem unpackColor_zero : unpackColor 0 = ⟨0, 0, 0⟩ := rfl

/-- Settles O26: CLEAR is a fill with OFF. -/
theorem clearZeroesEveryPixel : Obligations.ClearZeroesEveryPixel := by
  refine ⟨gatedCommandsNeedReady .clear (by simp), flushesThenCompletes .clear, fun s _ hl => ?_⟩
  rw [exec_clear_of_ready s hl, writeTransform_off, State.flush_fillPixels]
  refine ⟨_, rfl, fun i hi => ?_, sameOutside_fill s.mem _⟩
  rw [Memory.pixel_fill s.mem 0 i hi]
  exact ⟨rfl, unpackColor_zero⟩

/-! ### SETMATRIX and GETMATRIX -/

theorem exec_setmatrix_of_bad_shape (s : State) (hl : s.lifecycle = .ready) (h : ¬ shapeValid s.regs.mshape s.regs.rowlen = true) :
    exec .setmatrix s = s.finishWith (.validation .shape 0) := (gated_ready s _ hl).trans (if_neg h)

theorem exec_setmatrix_of_checked (s : State) (ws : List (Pos × Rgb)) (hl : s.lifecycle = .ready)
    (hv : shapeValid s.regs.mshape s.regs.rowlen = true)
    (h : checkEntries (stagedEntry s.mem) (List.range Config.pixelCount) = .ok ws) :
    exec .setmatrix s = .next (s.putColors ws).flush := by
  refine (gated_ready s _ hl).trans ((if_pos hv).trans ?_)
  rw [h]

theorem exec_setmatrix_of_error (s : State) (r : Report) (hl : s.lifecycle = .ready)
    (hv : shapeValid s.regs.mshape s.regs.rowlen = true)
    (h : checkEntries (stagedEntry s.mem) (List.range Config.pixelCount) = .error r) : exec .setmatrix s = s.finishWith r := by
  refine (gated_ready s _ hl).trans ((if_pos hv).trans ?_)
  rw [h]

/-- A grid of good entries is written whole (42_display_pixels R144). -/
theorem exec_setmatrix_of_ok (s : State) (c : Nat → Rgb) (hl : s.lifecycle = .ready) (hv : shapeValid s.regs.mshape s.regs.rowlen = true)
    (h : ∀ e < 64, stagedEntry s.mem e = .ok (posOfEntry e, c e)) :
    exec .setmatrix s = .next (Flushing s (s.gridMemory (fun p => c (8 * p.y.val + p.x.val)))) := by
  have hall := checkEntries_of_ok (stagedEntry s.mem) (fun e => (posOfEntry e, c e)) (List.range Config.pixelCount)
    fun e he => h e (List.mem_range.mp he)
  rw [exec_setmatrix_of_checked s _ hl hv hall, State.putColors_entries, State.flush_putGrid_eq_flushing]

/-- The first bad entry ends the command with its number (42_display_pixels R144). -/
theorem exec_setmatrix_of_bad_entry (s : State) (e : Nat) (hs : Latched .setmatrix s) (hl : s.lifecycle = .ready)
    (hv : shapeValid s.regs.mshape s.regs.rowlen = true) (he : e < 64) (hgood : ∀ k < e, ∃ a, stagedEntry s.mem k = .ok a)
    (hbad : stagedEntry s.mem e = .error .color) : exec .setmatrix s = .next (Ended s (errValue e 0x15 2 1)) := by
  rw [exec_setmatrix_of_error s _ hl hv (checkEntries_range_of_error (stagedEntry s.mem) _ e .color he hgood hbad)]
  exact finishWith_validation_eq .setmatrix s .color e (by omega) hs

/-- Settles O27: the shape first, then the entries' checks, then the grid they make. -/
theorem setmatrixWritesGridOrNothing : Obligations.SetmatrixWritesGridOrNothing := by
  refine ⟨gatedCommandsNeedReady .setmatrix (by simp), flushesThenCompletes .setmatrix, fun s hs hl => ?_⟩
  rw [← shapeValid_iff]
  refine ⟨fun c hv h => ?_, fun hv => ?_, fun e he hv hgood hbad => ?_⟩
  · exact ⟨_, exec_setmatrix_of_ok s c hl hv fun e he => stagedEntry_of_holds _ e _ (h e he), s.pixel_gridMemory _,
      s.sameOutside_gridMemory _⟩
  · rw [exec_setmatrix_of_bad_shape s hl hv]
    exact finishWith_validation_eq .setmatrix s .shape 0 (by omega) hs
  · exact exec_setmatrix_of_bad_entry s e hs hl hv he (fun k hk => stagedEntry_of_not_bad _ k (hgood k hk))
      (stagedEntry_of_bad _ e hbad)

theorem exec_getmatrix_of_ready (s : State) (hl : s.lifecycle = .ready) :
    exec .getmatrix s = s.storeMatrix.finishWith .success := gated_ready s _ hl

/-- Settles O28, from what storing MRESULT writes. -/
theorem getmatrixCopiesStoredColors : Obligations.GetmatrixCopiesStoredColors := by
  refine ⟨gatedCommandsNeedReady .getmatrix (by simp), fun s hs hl => ⟨s.storeMatrix.mem, ?_, fun p => ?_, s.readByte_storeMatrix⟩⟩
  · rw [exec_getmatrix_of_ready s hl, s.storeMatrix_eq]
    exact finishWith_success_of_pending .getmatrix s _ rfl hs
  · have hp := p.x.isLt
    rw [s.readWord_storeMatrix _ (by omega), posOfEntry_mul_add, rgbWord_eq_ofNat]
    rfl

end Sys2Proof.Machine
end

section
/-!
SUPPORT. The flips: the memory that a mirrored grid leaves, the two commands, and the statements about them (42_display_pixels R146-R148).
-/

namespace Sys2Proof.Machine

/-! ### A mirrored grid -/

/-- The memory that a flip leaves: position `p` takes the stored color of `mirror p` (42_display_pixels R146, R147). -/
def State.flipMemory (mirror : Pos → Pos) (s : State) : Memory := s.gridMemory (fun p => s.getPixel (mirror p))

theorem State.pixel_flipMemory (mirror : Pos → Pos) (s : State) (p : Pos) :
    (s.flipMemory mirror).pixel (physIndex s.rot p) =
      writeTransform (unpackColor (s.mem.pixel (physIndex s.rot (mirror p)))) s.lowlight :=
  s.pixel_gridMemory _ p

/-- Without low-light a flip moves pixel words as they are (40_codec R121, 42_display_pixels R148). -/
theorem State.pixel_flipMemory_of_not_lowlight (mirror : Pos → Pos) (s : State) (p : Pos) (h : s.lowlight = false) :
    (s.flipMemory mirror).pixel (physIndex s.rot p) = s.mem.pixel (physIndex s.rot (mirror p)) := by
  rw [State.pixel_flipMemory, h, writeTransform_false, packColor_unpackColor]

/-! ### FLIPH and FLIPV -/

theorem exec_fliph_of_ready (s : State) (hl : s.lifecycle = .ready) :
    exec .fliph s = .next (Flushing s (s.flipMemory mirrorColumns)) := by
  show execFliph s = _
  rw [execFliph, gated_ready s _ hl, State.flush_putGrid_eq_flushing]
  rfl

theorem exec_flipv_of_ready (s : State) (hl : s.lifecycle = .ready) :
    exec .flipv s = .next (Flushing s (s.flipMemory mirrorRows)) := by
  show execFlipv s = _
  rw [execFlipv, gated_ready s _ hl, State.flush_putGrid_eq_flushing]
  rfl

/-- The coordinate that makes 7 with `c` is its mirror. -/
theorem seven_sub_eq (c c' : Fin 8) (h : c.val + c'.val = 7) : 7 - c = c' := by
  rw [Fin.ext_iff, val_seven_sub]
  omega

/-- Settles O29, from the memory a mirrored grid leaves. -/
theorem fliphMirrorsColumns : Obligations.FliphMirrorsColumns := by
  refine ⟨gatedCommandsNeedReady .fliph (by simp), flushesThenCompletes .fliph, fun s _ hl =>
    ⟨_, exec_fliph_of_ready s hl, s.sameOutside_gridMemory _, fun x x' y h => ?_⟩⟩
  rw [State.pixel_flipMemory, mirrorColumns, seven_sub_eq x x' h]

/-- Settles O30, as O29. -/
theorem flipvMirrorsRows : Obligations.FlipvMirrorsRows := by
  refine ⟨gatedCommandsNeedReady .flipv (by simp), flushesThenCompletes .flipv, fun s _ hl =>
    ⟨_, exec_flipv_of_ready s hl, s.sameOutside_gridMemory _, fun x y y' h => ?_⟩⟩
  rw [State.pixel_flipMemory, mirrorRows, seven_sub_eq y y' h]

theorem mirrorColumns_mirrorColumns (p : Pos) : mirrorColumns (mirrorColumns p) = p := by
  simp only [mirrorColumns, seven_sub_seven_sub]

theorem mirrorRows_mirrorRows (p : Pos) : mirrorRows (mirrorRows p) = p := by
  simp only [mirrorRows, seven_sub_seven_sub]

/-- Both flips write the grid mirrored, by a mirror that undoes itself. -/
theorem exec_flip_of_ready (i : Instr) (hi : i = .fliph ∨ i = .flipv) :
    ∃ mirror : Pos → Pos, (∀ p, mirror (mirror p) = p) ∧
      ∀ s : State, s.lifecycle = .ready → exec i s = .next (Flushing s (s.flipMemory mirror)) := by
  rcases hi with rfl | rfl
  · exact ⟨mirrorColumns, mirrorColumns_mirrorColumns, exec_fliph_of_ready⟩
  · exact ⟨mirrorRows, mirrorRows_mirrorRows, exec_flipv_of_ready⟩

/-- Without low-light, a flip of the memory that the same flip left restores it (42_display_pixels R148). -/
theorem flipMemory_flipMemory (mirror : Pos → Pos) (hm : ∀ p, mirror (mirror p) = p) (s u : State) (hw : s.mem.wf)
    (hmem : u.mem = s.flipMemory mirror) (hrot : u.rot = s.rot) (hs : s.lowlight = false) (hu : u.lowlight = false) :
    u.flipMemory mirror = s.mem := by
  have hwu : u.mem.wf := hmem ▸ s.wf_gridMemory _ hw
  refine Memory.eq_of_pixel_eq s.mem _ hw (u.wf_gridMemory _ hwu) (fun a ha => ?_) fun i hi => ?_
  · calc (u.flipMemory mirror).readByte a
      _ = u.mem.readByte a := u.sameOutside_gridMemory _ a ha
      _ = s.mem.readByte a := hmem ▸ s.sameOutside_gridMemory _ a ha
  · obtain ⟨p, rfl⟩ := physIndex_surjective u.rot i hi
    calc (u.flipMemory mirror).pixel (physIndex u.rot p)
      _ = u.mem.pixel (physIndex s.rot (mirror p)) := by rw [u.pixel_flipMemory_of_not_lowlight mirror p hu, hrot]
      _ = s.mem.pixel (physIndex u.rot p) := by rw [hmem, s.pixel_flipMemory_of_not_lowlight mirror _ hs, hm, hrot]

/-- Under low-light a stored word other than 0 shrinks when it is written back: each of its fields at least halves (40_codec R121). -/
theorem writeTransform_unpackColor_lt (p : Half) (hp : p ≠ 0) : (writeTransform (unpackColor p) true).toNat < p.toNat := by
  have hpos : p.toNat ≠ 0 := fun h => hp (BitVec.eq_of_toNat_eq h)
  have hr : (unpackColor p).r.toNat / 8 / 8 ≤ p.toNat / 2048 / 2 := by
    rw [unpackColor_r_toNat]
    omega
  have hg : (unpackColor p).g.toNat / 8 / 4 ≤ p.toNat / 32 % 64 / 2 := by
    rw [unpackColor_g_toNat]
    omega
  have hb : (unpackColor p).b.toNat / 8 / 8 ≤ p.toNat % 32 / 2 := by
    rw [unpackColor_b_toNat]
    omega
  rw [writeTransform_true, packColor_toNat]
  simp only [lowlightColor, ll_toNat]
  omega

/-- Settles O31: the flip of a flip, pixel word by pixel word; and the stored word under low-light is smaller. -/
theorem flipTwiceRestoresWithoutLowlight : Obligations.FlipTwiceRestoresWithoutLowlight := by
  refine ⟨fun s t u i hi hw hl hs ht hmem hrot hu hlu => ?_, fun p hp h => ?_⟩
  · obtain ⟨mirror, hm, hx⟩ := exec_flip_of_ready i hi
    rw [hx s hl] at ht
    cases ht
    exact ⟨_, hx u hlu, flipMemory_flipMemory mirror hm s u hw hmem hrot hs hu⟩
  · exact absurd (congrArg BitVec.toNat h) (Nat.ne_of_lt (writeTransform_unpackColor_lt p hp))

end Sys2Proof.Machine
end

section
/-!
SUPPORT. Scroll text: the filter, the bitmap's columns, and SHOWMSG up to its hand-over to SEQ, with the statements about them
(43_scroll R152-R162).
-/

namespace Sys2Proof.Machine

/-! ### The text filter -/

theorem supported_iff (b : Byte) :
    supported b = true ↔
      b.toNat = 0x20 ∨ b.toNat = 0x21 ∨ b.toNat = 0x3F ∨ (0x30 ≤ b.toNat ∧ b.toNat ≤ 0x39) ∨
        (0x41 ≤ b.toNat ∧ b.toNat ≤ 0x5A) := by
  simp only [supported, Bool.or_eq_true, Bool.and_eq_true, decide_eq_true_eq]
  omega

theorem upper_toNat (b : Byte) : (upper b).toNat = if 0x61 ≤ b.toNat ∧ b.toNat ≤ 0x7A then b.toNat - 0x20 else b.toNat := by
  unfold upper
  split
  · exact BitVec.toNat_sub_of_le (BitVec.le_def.mpr (show 0x20 ≤ b.toNat by omega))
  · rfl

theorem filterText_cons_of_supported (b : Byte) (t : List Byte) (h : supported (upper b) = true) :
    filterText (b :: t) = upper b :: filterText t := List.filter_cons_of_pos h

theorem filterText_cons_of_not_supported (b : Byte) (t : List Byte) (h : supported (upper b) = false) :
    filterText (b :: t) = filterText t := List.filter_cons_of_neg (Bool.eq_false_iff.mp h)

theorem length_filterText_le (t : List Byte) : (filterText t).length ≤ t.length :=
  (List.length_filter_le _ _).trans_eq (List.length_map upper)

theorem supported_of_mem_filterText (t : List Byte) (b : Byte) (h : b ∈ filterText t) : supported b = true :=
  (List.mem_filter.mp h).2

/-- Settles O35, from the set of supported characters and the filter's equations on a list. -/
theorem textFilterKeepsSupportedUppercase : Obligations.TextFilterKeepsSupportedUppercase :=
  ⟨supported_iff, upper_toNat, rfl, filterText_cons_of_supported, filterText_cons_of_not_supported,
    fun t => ⟨length_filterText_le t, supported_of_mem_filterText t⟩⟩

/-! ### The bitmap's columns -/

section
variable (font : Byte → Fin 5 → Byte) (t : List Byte) (n : Nat) (tc bc : Rgb) (y : Nat)

/-- The columns before the first character and after the last one are background (43_scroll R157). -/
theorem columnColor_of_pad (c : Nat) (h : c < 8 ∨ 8 + 6 * n ≤ c) : columnColor font t n tc bc c y = bc := if_pos h

/-- A character's sixth column is background (43_scroll R157). -/
theorem columnColor_of_spacing (k : Nat) (hk : k < n) : columnColor font t n tc bc (8 + 6 * k + 5) y = bc := by
  have hin : ¬ (8 + 6 * k + 5 < 8 ∨ 8 + 6 * n ≤ 8 + 6 * k + 5) := by omega
  have hcol : ¬ (8 + 6 * k + 5 - 8) % 6 < 5 := by omega
  rw [columnColor, if_neg hin, dif_neg hcol]

/-- A character's first five columns are its glyph's (43_scroll R157). -/
theorem columnColor_of_glyph (k : Nat) (hk : k < n) (j : Fin 5) :
    columnColor font t n tc bc (8 + 6 * k + j.val) y = if (font (t.getD k 0) j).getLsbD y then tc else bc := by
  have hj := j.isLt
  have hin : ¬ (8 + 6 * k + j.val < 8 ∨ 8 + 6 * n ≤ 8 + 6 * k + j.val) := by omega
  have hcol : (8 + 6 * k + j.val - 8) % 6 = j.val := by omega
  have hchar : (8 + 6 * k + j.val - 8) / 6 = k := by omega
  rw [columnColor, if_neg hin, dif_pos (hcol.trans_lt hj)]
  simp only [hcol, hchar]

end

/-- Settles O41, column by column. -/
theorem bitmapColumnsFollowGlyphs : Obligations.BitmapColumnsFollowGlyphs := by
  intro font t tc bc y _
  refine ⟨fun c hc => columnColor_of_pad font t _ tc bc y c (.inl hc), fun c hc => columnColor_of_pad font t _ tc bc y c (.inr hc),
    fun k hk => ⟨columnColor_of_spacing font t _ tc bc y k hk, fun j => ?_⟩⟩
  rw [columnColor_of_glyph font t _ tc bc y k hk j, List.getD_eq_getElem t 0 hk]

/-! ### The hand-over to SEQ -/

/-- In IDLE the request is SEQ's next call, to start at once (43_scroll R161). -/
theorem State.offer_of_idle (cr : Bool) (r : ScrollCall) (s : State) (h : s.sq.phase = .idle) :
    s.offer cr r = { s with sq := { s.sq with req := r, reqValid := true, phase := .start } } := by
  rw [State.offer, h]

/-- In RUN the running call is abandoned and the display settles first (43_scroll R161). -/
theorem State.offer_of_run (cr : Bool) (r : ScrollCall) (s : State) (h : s.sq.phase = .run) :
    s.offer cr r =
      { s with
        done := if cr then Posted s s.sq.cur.tag 5 0 else s.done
        sq := { s.sq with
          tickPending := false, tcount := 0, req := r, reqValid := true, settleCnt := 1000, phase := .settle } } := by
  rw [State.offer, h, State.abandon_eq]
  rfl

/-- In SETTLE and in START the waiting request is abandoned (43_scroll R161). -/
theorem State.offer_of_waiting (cr : Bool) (r : ScrollCall) (s : State) (h : s.sq.phase = .settle ∨ s.sq.phase = .start) :
    s.offer cr r =
      { s with done := if cr then Posted s s.sq.req.tag 5 0 else s.done, sq := { s.sq with req := r, reqValid := true } } := by
  rcases h with h | h
  · simp only [State.offer, h, State.abandon_eq]
  · simp only [State.offer, h, State.abandon_eq]

/-- In FINISH a request that waits already is abandoned (43_scroll R161). -/
theorem State.offer_of_finish (cr : Bool) (r : ScrollCall) (s : State) (h : s.sq.phase = .finish) :
    s.offer cr r =
      { s with
        done := if s.sq.reqValid then (if cr then Posted s s.sq.req.tag 5 0 else s.done) else s.done
        sq := { s.sq with req := r, reqValid := true } } := by
  by_cases hv : s.sq.reqValid = true
  · simp only [State.offer, h, if_pos hv, State.abandon_eq]
  · simp only [State.offer, h, if_neg hv]

/-- Settles O34, by SEQ_STATE. -/
theorem offerReplacesOrSettles : Obligations.OfferReplacesOrSettles := fun s r cr =>
  ⟨s.offer_of_idle cr r, s.offer_of_run cr r, s.offer_of_waiting cr r, s.offer_of_finish cr r⟩

/-! ### SHOWMSG -/

theorem textLength_eq (textlen : Word) : textLength textlen = textlen.toNat % 65536 := packedOperand_toNat textlen

/-- The frame interval is at least 10 (43_scroll R159). -/
theorem scrollInterval_eq (speed : Word) : scrollInterval speed = BitVec.ofNat 32 (max 10 speed.toNat) := by
  have hlt : speed < Config.minInterval ↔ speed.toNat < 10 := BitVec.lt_def
  unfold scrollInterval
  split
  · rename_i h
    rw [max_eq_left (hlt.mp h).le]
    rfl
  · rename_i h
    rw [max_eq_right (not_lt.mp (mt hlt.mpr h)), BitVec.ofNat_toNat]
    exact (BitVec.setWidth_eq speed).symm

theorem exec_showmsg_of_long (s : State) (hn : 256 < textLength s.regs.textlen) :
    exec .showmsg s = s.finishWith (.validation .length 0) := if_pos hn

theorem exec_showmsg_of_no_text_color (s : State) (hn : textLength s.regs.textlen ≤ 256)
    (ht : readColor s.regs.textcolRg s.regs.textcolB = none) : exec .showmsg s = s.finishWith (.validation .color 0) := by
  refine (if_neg (Nat.not_lt.mpr hn)).trans ?_
  rw [ht]

theorem exec_showmsg_of_no_background (s : State) (tc : Rgb) (hn : textLength s.regs.textlen ≤ 256)
    (ht : readColor s.regs.textcolRg s.regs.textcolB = some tc) (hb : readColor s.regs.backcolRg s.regs.backcolB = none) :
    exec .showmsg s = s.finishWith (.validation .color 1) := by
  refine (if_neg (Nat.not_lt.mpr hn)).trans ?_
  rw [ht, hb]

theorem exec_showmsg_of_operands (s : State) (tc bc : Rgb) (hn : textLength s.regs.textlen ≤ 256)
    (ht : readColor s.regs.textcolRg s.regs.textcolB = some tc) (hb : readColor s.regs.backcolRg s.regs.backcolB = some bc) :
    exec .showmsg s = (s.acceptMessage false (textLength s.regs.textlen) tc bc).finishWith .success := by
  refine (if_neg (Nat.not_lt.mpr hn)).trans ?_
  rw [ht, hb]
  rfl

/-- An accepted message completes with success (43_scroll R160). -/
theorem exec_showmsg_ended (s : State) (tc bc : Rgb) (hs : Latched .showmsg s) (hn : textLength s.regs.textlen ≤ 256)
    (ht : HoldsColor s.regs.textcolRg s.regs.textcolB tc) (hb : HoldsColor s.regs.backcolRg s.regs.backcolB bc) :
    exec .showmsg s = .next (Ended (s.acceptMessage false (textLength s.regs.textlen) tc bc) (errValue 0 0x30 0 0)) := by
  rw [exec_showmsg_of_operands s tc bc hn (readColor_of_holds _ _ tc ht) (readColor_of_holds _ _ bc hb)]
  obtain ⟨d, q, h⟩ := State.acceptMessage_frame false (textLength s.regs.textlen) tc bc s
  rw [h]
  exact finishWith_success_of_pending .showmsg s _ rfl hs

/-- Settles O33: the checks in order, then the two ends of an accepted message. -/
theorem showmsgChecksThenHandsOver : Obligations.ShowmsgChecksThenHandsOver := by
  intro s hs
  rw [← textLength_eq]
  refine ⟨fun hn => ?_, fun hn ht => ?_, fun tc hn ht hb => ?_, fun tc bc hn ht hb => ⟨fun he => ?_, fun he => ?_⟩⟩
  · rw [exec_showmsg_of_long s hn]
    exact finishWith_validation_eq .showmsg s .length 0 (by omega) hs
  · rw [exec_showmsg_of_no_text_color s hn (readColor_of_bad _ _ ht)]
    exact finishWith_validation_eq .showmsg s .color 0 (by omega) hs
  · rw [exec_showmsg_of_no_background s tc hn (readColor_of_holds _ _ tc ht) (readColor_of_bad _ _ hb)]
    exact finishWith_validation_eq .showmsg s .color 1 (by omega) hs
  · rw [exec_showmsg_ended s tc bc hs hn ht hb, acceptMessage_of_empty false _ tc bc s he]
    rfl
  · rw [exec_showmsg_ended s tc bc hs hn ht hb, acceptMessage_of_text false _ tc bc s he, State.messageCall, scrollInterval_eq]
    rfl

end Sys2Proof.Machine
end

section
/-!
SUPPORT. SEQ's steps and the tick, stage by stage: what a pick of SEQ does in each SEQ_STATE, and the rest of an operation once its FB
update stands, with the statements about them (43_scroll R163-R170).
-/

namespace Sys2Proof.Machine

/-! ### The tick -/

theorem next_tick (s : State) : Next .tick s = .next s.tick := rfl

theorem next_tick_of_due (s : State) (hp : s.sq.phase = .run) (hc : s.sq.tcount + 1 = s.sq.cur.interval) :
    Next .tick s = .next { s with sq := { s.sq with tcount := 0, tickPending := true } } := by
  rw [next_tick, s.tick_of_run hp, s.sq.runTick_of_due hc]

theorem next_tick_of_not_due (s : State) (hp : s.sq.phase = .run) (hc : s.sq.tcount + 1 ≠ s.sq.cur.interval) :
    Next .tick s = .next { s with sq := { s.sq with tcount := s.sq.tcount + 1 } } := by
  rw [next_tick, s.tick_of_run hp, s.sq.runTick_of_not_due hc]

/-- Settles O36, by SEQ_STATE. -/
theorem tickCountsIntervalAndSettling : Obligations.TickCountsIntervalAndSettling := by
  intro s
  have last_iff : s.sq.settleCnt - 1 = 0 ↔ s.sq.settleCnt = 1 := BitVec.sub_eq_iff_eq_add
  refine ⟨next_tick_of_due s, next_tick_of_not_due s, fun hp hc => ?_, fun hp hc => ?_, fun hp => ?_⟩
  · rw [next_tick, s.tick_of_settle hp, s.sq.settleTick_of_over (last_iff.mpr hc)]
  · rw [next_tick, s.tick_of_settle hp, s.sq.settleTick_of_not_over (mt last_iff.mp hc)]
  · rw [next_tick, s.tick_of_other]
    · rcases hp with h | h | h <;> simp [h]
    · rcases hp with h | h | h <;> simp [h]

/-! ### A pick of SEQ -/

theorem next_seq_of_seqNext (s t : State) (h : s.seqNext = some t) : Next .seq s = .next t := seqStep_of_seqNext s t h

/-- With no SEQ operation half done, a pick of SEQ makes the step it can begin. -/
theorem next_seq_of_begin (s t : State) (hm : SeqMayBegin s) (h : s.seqBegin = some t) : Next .seq s = .next t :=
  next_seq_of_seqNext s t ((seqNext_eq_seqBegin s hm).trans h)

/-- With no SEQ operation half done and none to begin, a pick of SEQ does nothing (log 4). -/
theorem next_seq_of_no_begin (s : State) (hm : SeqMayBegin s) (h : s.seqBegin = none) : Next .seq s = .next s := by
  rw [next_eq_deliver, State.deliver, State.seqStep, seqNext_eq_seqBegin s hm, h]

theorem seqMayBegin_of_free (s : State) (h : s.pipe = .free) : SeqMayBegin s := by
  intro k hk
  rw [h] at hk
  cases hk

/-- START begins with a request and PIPE free (43_scroll R164). -/
theorem seqBegin_of_start (s : State) (h : s.sq.phase = .start) :
    s.seqBegin = if s.sq.reqValid ∧ s.pipe = .free then some s.startOp else none := by
  rw [State.seqBegin, h]

/-- Within an interval SEQ begins nothing (43_scroll R165, R166). -/
theorem seqBegin_of_no_tick (s : State) (h : s.sq.phase = .run) (ht : s.sq.tickPending = false) : s.seqBegin = none := by
  rw [State.seqBegin, h, ht]
  rfl

/-- With an interval over and a column left to show, FRAME begins once PIPE is free (43_scroll R166). -/
theorem seqBegin_of_column_left (s : State) (h : s.sq.phase = .run) (ht : s.sq.tickPending = true)
    (ho : s.sq.offset.toNat < s.sq.tw.toNat) : s.seqBegin = if s.pipe = .free then some s.frameOp else none := by
  rw [State.seqBegin, h, ht]
  exact if_pos (BitVec.lt_def.mpr ho)

/-- With an interval over and every column shown, TAKE begins whoever owns PIPE (43_scroll R165). -/
theorem seqBegin_of_all_shown (s : State) (h : s.sq.phase = .run) (ht : s.sq.tickPending = true)
    (ho : s.sq.tw.toNat ≤ s.sq.offset.toNat) : s.seqBegin = some s.takeStep := by
  rw [State.seqBegin, h, ht]
  exact if_neg (mt BitVec.lt_def.mp (Nat.not_lt.mpr ho))

/-- FINISH begins with PIPE free (43_scroll R169). -/
theorem seqBegin_of_finish (s : State) (h : s.sq.phase = .finish) :
    s.seqBegin = if s.pipe = .free then some s.finishOp else none := by
  rw [State.seqBegin, h]

/-! ### The rest of an operation -/

/-- A flush that is due is requested in SEQ's next step (20_memory R76, R80). -/
theorem flushIsRequested_of_seq (k : SeqKind) (s : State) (hp : s.pipe = .seq k) : FlushIsRequested .seq s := by
  intro hf hd ha
  refine next_seq_of_seqNext s _ ?_
  rw [State.seqNext, hp, ha, flushNext_of_due s hf hd]
  rfl

/-- DEVICE's answer to a flush of SEQ is delivered (60_exceptions R198). -/
theorem answerIsDelivered_of_seq (k : SeqKind) (b : List Byte) (s : State) (hp : s.pipe = .seq k) :
    AnswerIsDelivered (.write b) s := by
  intro hr a
  have hm : s.pipe.makes (.write b) = true := by
    rw [hp]
    rfl
  rw [next_eq_deliver, State.deliver, State.deviceAnswer, hr]
  exact if_pos hm

/-- Once DEVICE has answered, SEQ ends its operation (43_scroll R164, R166, R169). -/
theorem next_seq_of_answer (k : SeqKind) (s : State) (p : DevReply) (hp : s.pipe = .seq k) (ha : s.devAns = some p) :
    Next .seq s = .next (s.seqResume k p.answer) := by
  refine next_seq_of_seqNext s _ ?_
  rw [State.seqNext, hp, ha]

/-! ### START, TAKE, FRAME and FINISH -/

/-- The lifecycle states outside READY and their causes (41_display_lifecycle R123). -/
theorem lcause_of_not_ready (l : Lifecycle) (h : l ≠ .ready) : lcause l = if l = .uninit then 1 else 3 := by
  cases l with
  | uninit => rfl
  | ready => exact absurd rfl h
  | closed => rfl

/-- The memory that a clear of SEQ leaves (43_scroll R164, R169). -/
def Memory.cleared (m : Memory) : Memory := m.setPixels ((List.range Config.pixelCount).map (fun i => (i, 0)))

theorem Memory.pixel_cleared (m : Memory) (i : Nat) (hi : i < 64) : m.cleared.pixel i = 0 := m.pixel_fill 0 i hi

theorem Memory.sameOutside_cleared (m : Memory) : SameOutsideFramebuffer m m.cleared := sameOutside_fill m 0

theorem next_seq_start (s : State) (hp : s.sq.phase = .start) (hv : s.sq.reqValid = true) (hf : s.pipe = .free)
    (hl : s.lifecycle = .ready) : Next .seq s = .next (SeqFlushing .start s s.mem.cleared) := by
  refine next_seq_of_begin s _ (seqMayBegin_of_free s hf) ?_
  rw [seqBegin_of_start s hp, if_pos ⟨hv, hf⟩, startOp_of_ready s hl, State.seqFlush_fillPixels]
  rfl

theorem next_seq_take (s : State) (hp : s.sq.phase = .run) (ht : s.sq.tickPending = true) (ho : s.sq.tw.toNat ≤ s.sq.offset.toNat)
    (hm : SeqMayBegin s) : Next .seq s = .next s.takeStep :=
  next_seq_of_begin s _ hm (seqBegin_of_all_shown s hp ht ho)

theorem next_seq_frame (s : State) (hp : s.sq.phase = .run) (ht : s.sq.tickPending = true) (ho : s.sq.offset.toNat < s.sq.tw.toNat)
    (hf : s.pipe = .free) (hl : s.lifecycle = .ready) :
    Next .seq s =
      .next (SeqFlushing .frame s.frameBegun (s.gridMemory (frameColor Config.font s.sq.cur s.sq.offset.toNat))) := by
  refine next_seq_of_begin s _ (seqMayBegin_of_free s hf) ?_
  rw [seqBegin_of_column_left s hp ht ho, if_pos hf, frameOp_of_ready s hl, State.seqFlush_putGrid]
  rfl

theorem next_seq_finish (s : State) (hp : s.sq.phase = .finish) (hf : s.pipe = .free) (hl : s.lifecycle = .ready) :
    Next .seq s = .next (SeqFlushing .finish s s.mem.cleared) := by
  refine next_seq_of_begin s _ (seqMayBegin_of_free s hf) ?_
  rw [seqBegin_of_finish s hp, if_pos hf, finishOp_of_ready s hl, State.seqFlush_fillPixels]
  rfl

/-- TW in bits is 16 + 6 n (43_scroll R156). -/
theorem bitmapWidth_eq (n : BitVec 9) : bitmapWidth n = BitVec.ofNat 16 (16 + 6 * n.toNat) := by
  apply BitVec.eq_of_toNat_eq
  have h16 : (16 : BitVec 16).toNat = 16 := rfl
  have h6 : (6 : BitVec 16).toNat = 6 := rfl
  simp only [bitmapWidth, BitVec.toNat_add, BitVec.toNat_mul, BitVec.toNat_setWidth, BitVec.toNat_ofNat, h16, h6]
  omega

/-- Settles O38: SEQ begins TAKE whoever owns PIPE. -/
theorem takeStopsTimer : Obligations.TakeStopsTimer := fun s hp ht ho hm => next_seq_take s hp ht ho hm

/-- Settles O37, stage by stage. -/
theorem startClearsThenRuns : Obligations.StartClearsThenRuns := by
  refine fun s hp => ⟨fun hv hf hl => ?_, fun hv hf hl => ?_, fun hm hn => ?_, fun hk => ?_⟩
  · exact ⟨_, next_seq_start s hp hv hf hl, s.mem.pixel_cleared, s.mem.sameOutside_cleared⟩
  · refine (next_seq_of_begin s (s.endRequest .state (lcause s.lifecycle)) (seqMayBegin_of_free s hf) ?_).trans ?_
    · rw [seqBegin_of_start s hp, if_pos ⟨hv, hf⟩, startOp_of_not_ready s hl]
    · rw [State.endRequest_eq, lcause_of_not_ready _ hl, ← hf]
      rfl
  · refine next_seq_of_no_begin s hm ?_
    rw [seqBegin_of_start s hp]
    refine if_neg fun ⟨hv, hf⟩ => ?_
    rcases hn with h | h
    · exact h hf
    · exact absurd hv (Bool.eq_false_iff.mp h)
  · refine ⟨flushIsRequested_of_seq .start s hk, fun b => answerIsDelivered_of_seq .start b s hk, fun r ha => ?_, fun r c ha => ?_⟩
    · rw [next_seq_of_answer .start s _ hk ha, seqResume_start_ok, bitmapWidth_eq]
    · exact next_seq_of_answer .start s _ hk ha

/-- Settles O39, stage by stage. -/
theorem frameWritesWindowThenAdvances : Obligations.FrameWritesWindowThenAdvances := by
  refine fun s hp => ⟨fun ht ho hf hl => ?_, fun ht ho hf hl => ?_, fun hm hn => ?_, fun hk => ?_⟩
  · exact ⟨_, next_seq_frame s hp ht ho hf hl, s.pixel_gridMemory _, s.sameOutside_gridMemory _⟩
  · refine (next_seq_of_begin s (s.frameBegun.endRunning .state (lcause s.lifecycle)) (seqMayBegin_of_free s hf) ?_).trans ?_
    · rw [seqBegin_of_column_left s hp ht ho, if_pos hf, frameOp_of_not_ready s hl]
    · rw [State.endRunning_eq, lcause_of_not_ready _ hl, ← hf]
      rfl
  · refine next_seq_of_no_begin s hm ?_
    cases ht : s.sq.tickPending with
    | false => exact seqBegin_of_no_tick s hp ht
    | true =>
      rcases hn with h | ⟨ho, hf⟩
      · exact absurd ht (Bool.eq_false_iff.mp h)
      · rw [seqBegin_of_column_left s hp ht ho, if_neg hf]
  · exact ⟨flushIsRequested_of_seq .frame s hk, fun b => answerIsDelivered_of_seq .frame b s hk,
      fun r ha => next_seq_of_answer .frame s _ hk ha, fun r c ha => next_seq_of_answer .frame s _ hk ha⟩

/-- Settles O40, stage by stage. -/
theorem finishClearsThenCompletes : Obligations.FinishClearsThenCompletes := by
  refine fun s hp => ⟨fun hf hl => ?_, fun hf hl => ?_, fun hm hf => ?_, fun hk => ?_⟩
  · exact ⟨_, next_seq_finish s hp hf hl, s.mem.pixel_cleared, s.mem.sameOutside_cleared⟩
  · refine (next_seq_of_begin s (s.endFinish .state (lcause s.lifecycle)) (seqMayBegin_of_free s hf) ?_).trans ?_
    · rw [seqBegin_of_finish s hp, if_pos hf, finishOp_of_not_ready s hl]
    · rw [State.endFinish_eq, lcause_of_not_ready _ hl, ← hf]
      rfl
  · refine next_seq_of_no_begin s hm ?_
    rw [seqBegin_of_finish s hp, if_neg hf]
  · exact ⟨flushIsRequested_of_seq .finish s hk, fun b => answerIsDelivered_of_seq .finish b s hk,
      fun r ha => next_seq_of_answer .finish s _ hk ha, fun r c ha => next_seq_of_answer .finish s _ hk ha⟩

end Sys2Proof.Machine
end

section
/-!
SUPPORT. Whole animations: runs of the machine along the schedule of a scroll call, an interval, a frame, all frames and the finish, with
the statement about them (43_scroll R173, R175).
-/

namespace Sys2Proof.Machine

/-! ### Runs along an agenda -/

/-- The first step of a run is its agenda's first event. -/
theorem core_run_succ_of_next (k : Nat) (s t : State) (e : Event) (events : List Event) (ha : s.agenda = e :: events)
    (h : Next e { s with agenda := events } = .next t) : Sys2Proof.core.run (k + 1) s = Sys2Proof.core.run k t :=
  core_run_succ k s t ((step_of_agenda s e events ha).trans h)

/-- Within an interval TCOUNT counts on without wrapping (43_scroll R163). -/
theorem Sequencer.tcount_succ_toNat (q : Sequencer) (h : q.tcount.toNat < q.cur.interval.toNat) :
    (q.tcount + 1).toNat = q.tcount.toNat + 1 :=
  BitVec.toNat_add_of_lt (Nat.lt_of_le_of_lt h q.cur.interval.isLt)

/-- The ticks left of an interval end it, on the last one and on no earlier one (43_scroll R163). -/
theorem core_run_ticks (n : Nat) (s : State) (events : List Event) (hp : s.sq.phase = .run)
    (hc : s.sq.tcount.toNat + (n + 1) = s.sq.cur.interval.toNat) (ha : s.agenda = List.replicate (n + 1) .tick ++ events) :
    Sys2Proof.core.run (n + 1) s = .next { s with agenda := events, sq := { s.sq with tcount := 0, tickPending := true } } := by
  induction n generalizing s with
  | zero =>
    have hsucc := s.sq.tcount_succ_toNat (by omega)
    have hdue : s.sq.tcount + 1 = s.sq.cur.interval := BitVec.eq_of_toNat_eq (hsucc.trans hc)
    exact core_run_succ_of_next 0 s _ .tick events ha (next_tick_of_due _ hp hdue)
  | succ n ih =>
    have hsucc := s.sq.tcount_succ_toNat (by omega)
    have hnot : s.sq.tcount + 1 ≠ s.sq.cur.interval := fun h => by
      have := congrArg BitVec.toNat h
      omega
    have hleft : (s.sq.tcount + 1).toNat + (n + 1) = s.sq.cur.interval.toNat := by omega
    refine (core_run_succ_of_next (n + 1) s _ .tick _ ha (next_tick_of_not_due _ hp hnot)).trans ?_
    exact ih _ hp hleft rfl

/-- The rest of a SEQ operation whose flush is due: the request, DEVICE's `ok`, and SEQ's going on (20_memory R80, 60_exceptions R190). -/
theorem core_run_seqFlushing (k : SeqKind) (s : State) (m : Memory) (events : List Event) (hd : s.devReq = none) (ha : s.devAns = none)
    (hag : s.agenda = [.seq, .answer .ok, .seq] ++ events) :
    Sys2Proof.core.run 3 (SeqFlushing k s m) =
      .next (State.seqResume k .ok { s with mem := m, pipe := .seq k, flushDue := false, devReq := none, agenda := events }) := by
  have requested := flushIsRequested_of_seq k (SeqFlushing k { s with agenda := [.answer .ok, .seq] ++ events } m) rfl rfl hd ha
  have answered := answerIsDelivered_of_seq k _ (Requested (SeqFlushing k { s with agenda := .seq :: events } m)) rfl rfl .ok
  have resumed := next_seq_of_answer k (Delivered (Requested (SeqFlushing k { s with agenda := events } m))
    (.write (SeqFlushing k s m).fbBytes) .ok) _ rfl rfl
  refine (core_run_succ_of_next 2 (SeqFlushing k s m) _ .seq _ hag requested).trans ?_
  refine (core_run_succ_of_next 1 _ _ (.answer .ok) _ rfl answered).trans ?_
  exact core_run_succ_of_next 0 _ _ .seq _ rfl resumed

/-! ### One frame -/

/-- How the machine stands at the beginning of an interval: the offset is `k`, memory is `m`, the pipeline is free and at rest, and
`events` come next; all else is as at `s`. -/
def State.betweenFrames (s : State) (m : Memory) (k : Nat) (events : List Event) : State :=
  { s with
    mem := m, pipe := .free, flushDue := false, devReq := none, devAns := none, agenda := events
    sq := { s.sq with offset := BitVec.ofNat 16 k, tcount := 0, tickPending := false } }

/-- An interval is over (43_scroll R163). -/
def State.intervalOver (s : State) : State := { s with sq := { s.sq with tickPending := true } }

theorem State.betweenFrames_self (s : State) (ho : s.sq.offset = 0) (hc : s.sq.tcount = 0) (ht : s.sq.tickPending = false)
    (hp : s.pipe = .free) (hf : s.flushDue = false) (hd : s.devReq = none) (ha : s.devAns = none) :
    s.betweenFrames s.mem 0 s.agenda = s := by
  have hq : { s.sq with offset := BitVec.ofNat 16 0, tcount := 0, tickPending := false } = s.sq := by
    rw [← ht, ← hc, show BitVec.ofNat 16 0 = s.sq.offset from ho.symm]
  rw [State.betweenFrames, hq, ← hp, ← hf, ← hd, ← ha]

theorem State.betweenFrames_sq (s : State) (m : Memory) (k : Nat) (events : List Event) (hc : s.sq.tcount = 0)
    (ht : s.sq.tickPending = false) : (s.betweenFrames m k events).sq = { s.sq with offset := BitVec.ofNat 16 k } := by
  rw [State.betweenFrames, ← hc, ← ht]

/-- A frame that DEVICE took advances the offset (43_scroll R166). -/
theorem State.seqResume_frame_betweenFrames (s : State) (m m' : Memory) (events' events : List Event) (k : Nat) :
    State.seqResume .frame .ok
        { s.betweenFrames m k events' with mem := m', pipe := .seq .frame, flushDue := false, devReq := none, agenda := events } =
      s.betweenFrames m' (k + 1) events := by
  have advanced : BitVec.ofNat 16 k + 1 = BitVec.ofNat 16 (k + 1) := (BitVec.ofNat_add k 1).symm
  rw [betweenFrames, betweenFrames, ← advanced]
  rfl

/-- TAKE, then FINISH with its clear's flush (43_scroll R165, R169). -/
theorem core_run_take_finish (s : State) (events : List Event) (hp : s.sq.phase = .run) (ht : s.sq.tickPending = true)
    (ho : s.sq.tw.toNat ≤ s.sq.offset.toNat) (hf : s.pipe = .free) (hd : s.devReq = none) (ha : s.devAns = none)
    (hl : s.lifecycle = .ready) (hag : s.agenda = [.seq, .seq, .seq, .answer .ok, .seq] ++ events) :
    Sys2Proof.core.run 5 s = .next (State.seqResume .finish .ok
      { s.takeStep with mem := s.mem.cleared, pipe := .seq .finish, flushDue := false, devReq := none, agenda := events }) := by
  have take := next_seq_take { s with agenda := [.seq, .seq, .answer .ok, .seq] ++ events } hp ht ho (seqMayBegin_of_free _ hf)
  have finish := next_seq_finish (State.takeStep { s with agenda := [.seq, .answer .ok, .seq] ++ events }) rfl hf hl
  refine (core_run_succ_of_next 4 s _ .seq _ hag take).trans ?_
  refine (core_run_succ_of_next 3 (State.takeStep { s with agenda := [.seq, .seq, .answer .ok, .seq] ++ events }) _ .seq _ rfl
    finish).trans ?_
  exact core_run_seqFlushing .finish (State.takeStep { s with agenda := [.seq, .answer .ok, .seq] ++ events }) _ events hd ha rfl

/-- How a call ends whose every column has been shown: SEQ is idle, or starts a waiting request; OK is posted (43_scroll R169). -/
def State.finished (s : State) (m : Memory) (events : List Event) : State :=
  { s.betweenFrames m s.sq.tw.toNat events with
    done := Posted s s.sq.cur.tag 0 0
    sq := { (s.betweenFrames m s.sq.tw.toNat events).sq with phase := if s.sq.reqValid then .start else .idle } }

theorem State.seqResume_finish_betweenFrames (s : State) (m m' : Memory) (events' events : List Event) :
    State.seqResume .finish .ok
        { (s.betweenFrames m s.sq.tw.toNat events').intervalOver.takeStep with
          mem := m', pipe := .seq .finish, flushDue := false, devReq := none, agenda := events } =
      s.finished m' events :=
  State.endFinish_eq .ok 0 _

section
variable (s : State) (m : Memory) (events : List Event)
  (hp : s.sq.phase = .run) (hi : 1 ≤ s.sq.cur.interval.toNat) (hl : s.lifecycle = .ready)
include hp

include hi in
/-- A whole interval of ticks. -/
theorem core_run_interval (k : Nat) :
    Sys2Proof.core.run s.sq.cur.interval.toNat (s.betweenFrames m k (List.replicate s.sq.cur.interval.toNat .tick ++ events)) =
      .next (s.betweenFrames m k events).intervalOver := by
  obtain ⟨n, hn⟩ := Nat.exists_eq_add_of_le' hi
  rw [hn]
  exact core_run_ticks n (s.betweenFrames m k (List.replicate (n + 1) .tick ++ events)) events hp
    ((Nat.zero_add _).trans hn.symm) rfl

include hl

/-- With an interval over and a column left to show, SEQ's step writes the window at the offset (43_scroll R166). -/
theorem step_intervalOver (k : Nat) (hk : k < s.sq.tw.toNat) :
    step (s.betweenFrames m k (.seq :: events)).intervalOver =
      .next (SeqFlushing .frame (s.betweenFrames m k events)
        ((s.betweenFrames m k events).gridMemory (frameColor Config.font s.sq.cur k))) := by
  have hoff : (s.betweenFrames m k events).intervalOver.sq.offset.toNat = k := Nat.mod_eq_of_lt (hk.trans s.sq.tw.isLt)
  have frame := next_seq_frame (s.betweenFrames m k events).intervalOver hp rfl (hoff.trans_lt hk) rfl hl
  rw [hoff] at frame
  exact frame

include hi in
/-- One frame: the window at the offset is shown, and the offset advances (43_scroll R166). -/
theorem core_run_frame (k : Nat) (hk : k < s.sq.tw.toNat) :
    ∃ m', Sys2Proof.core.run (s.sq.cur.interval.toNat + 4)
        (s.betweenFrames m k (frameSchedule s.sq.cur.interval.toNat ++ events)) = .next (s.betweenFrames m' (k + 1) events) ∧
      ∀ p : Pos, m'.pixel (physIndex s.rot p) = writeTransform (frameColor Config.font s.sq.cur k p) s.lowlight := by
  refine ⟨_, ?_, (s.betweenFrames m k ([.seq, .answer .ok, .seq] ++ events)).pixel_gridMemory _⟩
  rw [frameSchedule, List.append_assoc]
  refine (core_run_add _ 4 _ _ (core_run_interval s m _ hp hi k)).trans ?_
  refine (core_run_succ 3 _ _ (step_intervalOver s m _ hp hl k hk)).trans ?_
  refine (core_run_seqFlushing .frame _ _ events rfl rfl rfl).trans ?_
  exact congrArg Host.Outcome.next (s.seqResume_frame_betweenFrames m _ _ events k)

/-! ### All frames, and the finish -/

include hi in
/-- After `k` frames the offset is `k` and the display shows the window at `k - 1` (43_scroll R166, R175). -/
theorem core_run_frames (k : Nat) (hk : k ≤ s.sq.tw.toNat) :
    ∃ m', Sys2Proof.core.run (k * (s.sq.cur.interval.toNat + 4))
        (s.betweenFrames m 0 (framesSchedule s.sq.cur.interval.toNat s.sq.tw.toNat ++ events)) =
          .next (s.betweenFrames m' k (framesSchedule s.sq.cur.interval.toNat (s.sq.tw.toNat - k) ++ events)) ∧
      (1 ≤ k → ∀ p : Pos,
        m'.pixel (physIndex s.rot p) = writeTransform (frameColor Config.font s.sq.cur (k - 1) p) s.lowlight) := by
  induction k with
  | zero => exact ⟨m, by rw [Nat.zero_mul]; rfl, nofun⟩
  | succ k ih =>
    obtain ⟨m₁, hrun, -⟩ := ih (by omega)
    obtain ⟨m', hframe, hshown⟩ :=
      core_run_frame s m₁ (framesSchedule s.sq.cur.interval.toNat (s.sq.tw.toNat - (k + 1)) ++ events) hp hi hl k hk
    refine ⟨m', ?_, fun _ => hshown⟩
    rw [Nat.succ_mul]
    refine (core_run_add _ _ _ _ hrun).trans ?_
    rw [show s.sq.tw.toNat - k = s.sq.tw.toNat - (k + 1) + 1 by omega, framesSchedule, List.append_assoc]
    exact hframe

include hi in
/-- The interval after the last frame, TAKE and FINISH: the call completes with OK and a cleared display (43_scroll R165, R169). -/
theorem core_run_finish :
    ∃ m', Sys2Proof.core.run (s.sq.cur.interval.toNat + 5)
        (s.betweenFrames m s.sq.tw.toNat (finishSchedule s.sq.cur.interval.toNat ++ events)) = .next (s.finished m' events) ∧
      ∀ i < 64, m'.pixel i = 0 := by
  have hoff : (BitVec.ofNat 16 s.sq.tw.toNat).toNat = s.sq.tw.toNat := Nat.mod_eq_of_lt s.sq.tw.isLt
  rw [finishSchedule, List.append_assoc]
  refine ⟨m.cleared, (core_run_add _ 5 _ _ (core_run_interval s m _ hp hi _)).trans ?_, m.pixel_cleared⟩
  refine (core_run_take_finish (s.betweenFrames m _ _).intervalOver events hp rfl hoff.ge rfl rfl rfl hl rfl).trans ?_
  exact congrArg Host.Outcome.next (s.seqResume_finish_betweenFrames m _ _ events)

end

/-- Settles O42: `k` frames by induction, then the finish. -/
theorem animationShowsEveryColumnThenCompletes : Obligations.AnimationShowsEveryColumnThenCompletes := by
  intro s rest interval tw hp hv ho hc ht hi hf hdue hd ha hl hag
  have start := s.betweenFrames_self ho hc ht hf hdue hd ha
  rw [hag, List.append_assoc] at start
  have frames := core_run_frames s s.mem (finishSchedule interval ++ rest) hp hi hl
  rw [start] at frames
  refine ⟨fun k hk => ?_, ?_⟩
  · obtain ⟨m, hrun, hshown⟩ := frames k hk
    exact ⟨_, hrun, s.betweenFrames_sq m k _ hc ht, rfl, rfl, rfl, hshown⟩
  · obtain ⟨m, hrun, -⟩ := frames tw le_rfl
    obtain ⟨m', hfinish, hcleared⟩ := core_run_finish s m rest hp hi hl
    rw [Nat.sub_self] at hrun
    have hoff : BitVec.ofNat 16 s.sq.tw.toNat = s.sq.tw := by rw [BitVec.ofNat_toNat, BitVec.setWidth_eq]
    have hidle : (s.finished m' rest).sq.phase = .idle := by
      show (if s.sq.reqValid then SeqState.start else SeqState.idle) = _
      rw [hv]
      rfl
    exact ⟨_, (core_run_add _ _ _ _ hrun).trans hfinish, hidle, hoff, rfl, rfl, rfl, rfl, rfl, rfl, hcleared⟩

end Sys2Proof.Machine
end

section
/-!
SUPPORT. Three clauses of `State.Safe` that few moves touch: every listed byte of memory stands at a memory offset, DEV_OPEN follows
LIFECYCLE, and CMD is the latched word.
-/

namespace Sys2Proof.Machine

/-! ### Every listed byte stands at a memory offset -/

/-- Every byte that a memory lists stands in FBWIN or in a staging memory (20_memory R64). -/
def Memory.Mapped (m : Memory) : Prop := ∀ c ∈ m, memoryOffset c.1

theorem Memory.mapped_setPixels (m : Memory) (ps : List (Nat × Half)) (h : m.Mapped) (hps : ∀ p ∈ ps, p.1 < 64) :
    (m.setPixels ps).Mapped := by
  intro c hc
  rcases m.mem_setPixels ps c hc with ⟨p, hp, hin⟩ | hold
  · have := hps p hp
    unfold fbBase at hin
    unfold memoryOffset
    omega
  · exact h c hold

theorem State.mapped_storeMatrix (s : State) (h : s.mem.Mapped) : s.storeMatrix.mem.Mapped := by
  intro c hc
  rcases s.mem_storeMatrix c hc with hin | hold
  · unfold memoryOffset
    omega
  · exact h c hold

/-- HOST writes whole words, inside the staging memories (20_memory R61, R67). -/
theorem HostEffect.mapped {s t : State} (h : HostEffect s t) (hm : s.mem.Mapped) : t.mem.Mapped := by
  cases h with
  | stored o v _ ho hr =>
    intro c hc
    rcases s.mem.mem_writeWord o v c hc with hin | hold
    · unfold memoryOffset
      omega
    · exact hm c hold
  | _ => exact hm

theorem Ending.mapped {i : Instr} {s u : State} (h : Ending i s u) (hm : s.mem.Mapped) : u.mem.Mapped := by
  cases h with
  | matrix => exact s.mapped_storeMatrix hm
  | message => rw [State.acceptMessage_writes]; exact hm
  | _ => exact hm

theorem ExecResult.mapped {i : Instr} {s t : State} (h : ExecResult i s t) (hm : s.mem.Mapped) : t.mem.Mapped := by
  cases h with
  | success u hu => exact hu.mapped hm
  | flush ps _ hps => exact s.mem.mapped_setPixels ps hm hps
  | _ => exact hm

theorem SeqMove.mapped {s t : State} (h : SeqMove s t) (hm : s.mem.Mapped) : t.mem.Mapped := by
  cases h with
  | start | finish =>
    rw [State.seqFlush_mem, State.fillPixels_mem]
    exact s.mem.mapped_setPixels _ hm (fill_index_lt 0)
  | frame => exact s.mem.mapped_setPixels _ hm (transform_index_lt _ _)
  | resume k p =>
    obtain ⟨q, d, he⟩ := State.seqResume_frame k p.answer s
    rw [he]
    exact hm
  | _ => exact hm

theorem StepEffect.mapped {s t : State} {rest : List Event} {n : Nat} (h : StepEffect s rest n t) (hm : s.mem.Mapped) :
    t.mem.Mapped := by
  cases h.memory with
  | kept he => exact he ▸ hm
  | host u hu he => exact he ▸ hu.mapped hm
  | execute i _ hx => exact hx.mapped hm
  | seq hq => exact hq.mapped hm
  | reset _ he => exact he ▸ fun _ hc => absurd hc List.not_mem_nil

/-! ### DEV_OPEN follows LIFECYCLE -/

/-- The device handle is open exactly in READY (10_state R46). -/
def State.HandleSound (s : State) : Prop := s.devOpen = decide (s.lifecycle = .ready)

/-- Only the rest of INIT and of CLOSE moves DEV_OPEN and LIFECYCLE, and it moves both (41_display_lifecycle R126, R127). -/
theorem StepEffect.handle {s t : State} {rest : List Event} {n : Nat} (h : StepEffect s rest n t) (hs : s.HandleSound) :
    t.HandleSound := by
  cases h with
  | resume p _ _ _ hr =>
    cases hr with
    | opened | closed => rfl
    | notOpened | flushed => exact hs
  | host u r hu ht =>
    have hu' : u.HandleSound := (congrArg State.HandleSound hu.writes).mpr hs
    exact ht ▸ hu'
  | execute i _ _ _ hx => exact (congrArg State.HandleSound hx.writes).mpr hs
  | seq hq => exact (congrArg State.HandleSound hq.writes).mpr hs
  | tick _ ht => exact (congrArg State.HandleSound (ht.trans (State.tick_writes _))).mpr hs
  | reset _ ht => exact (congrArg State.HandleSound ht).mpr rfl
  | illegal _ _ _ _ ht | request _ _ _ _ _ ht | complete _ _ _ ht | answer _ _ _ _ _ ht | wait ht =>
    exact (congrArg State.HandleSound ht).mpr hs

/-! ### CMD is the latched word -/

/-- CMD reads the word that was latched last (10_state R25; log 15). -/
def State.LatchSound (s : State) : Prop := s.cmd = s.pending.word

/-- A CMD write latches the word that it stores (30_encoding R91 step 1). -/
theorem HostEffect.latchSound {s t : State} (h : HostEffect s t) (hs : s.LatchSound) : t.LatchSound := by
  cases h with
  | latched w => rfl
  | _ => exact hs

/-- Executing a command leaves its word in PENDING (log 15). -/
theorem ExecResult.pending {i : Instr} {s t : State} (h : ExecResult i s t) : t.pending = { s.pending with valid := false } := by
  cases h with
  | success u hu =>
    cases hu with
    | message len tc bc => rw [State.acceptMessage_writes]; rfl
    | _ => rfl
  | _ => rfl

theorem StepEffect.latchSound {s t : State} {rest : List Event} {n : Nat} (h : StepEffect s rest n t) (hs : s.LatchSound) :
    t.LatchSound := by
  cases h with
  | host u r hu ht =>
    have hu' : u.LatchSound := hu.latchSound hs
    exact ht ▸ hu'
  | execute i _ _ _ hx =>
    have hword : t.pending.word = s.pending.word := (congrArg Pending.word hx.pending :)
    exact ((congrArg State.cmd hx.writes).trans hs).trans hword.symm
  | resume p _ _ _ hr => cases hr <;> exact hs
  | seq hq => exact (congrArg State.LatchSound hq.writes).mpr hs
  | tick _ ht => exact (congrArg State.LatchSound (ht.trans (State.tick_writes _))).mpr hs
  | reset _ ht => exact (congrArg State.LatchSound ht).mpr rfl
  | illegal _ _ _ _ ht | request _ _ _ _ _ ht | complete _ _ _ ht | answer _ _ _ _ _ ht | wait ht =>
    exact (congrArg State.LatchSound ht).mpr hs

end Sys2Proof.Machine
end

section
/-!
SUPPORT. The reserved bits and codes are never produced (10_state R27, R35, R36; 60_exceptions R179): ERR and SCROLL_DONE hold the codes of
reports, and the result words leave their upper bytes zero.
-/

namespace Sys2Proof.Machine

/-- The four bits of ERR above CODE read zero (10_state R27). -/
theorem errWord_reserved (op : Byte) (r : Report) : (errWord op r).extractLsb' 4 4 = 0 := by
  apply BitVec.eq_of_toNat_eq
  rw [field_toNat, errWord_toNat]
  have := r.code.bits.isLt
  simp only [BitVec.toNat_ofNat, BitVec.ofNat_eq_ofNat]
  omega

/-- A host command never ends as CANCELLED (60_exceptions R179). -/
theorem code_le_four (c : ErrCode) (h : c ≠ .cancelled) : c.bits.toNat ≤ 4 := by
  cases c with
  | cancelled => exact absurd rfl h
  | _ => decide

/-- ERR takes its value from a report, and no other read-only register changes (60_exceptions R185). -/
theorem State.RegistersSound.complete {s : State} (h : s.RegistersSound) (r : Report) (hr : r.code ≠ .cancelled) :
    (s.complete r).RegistersSound where
  err := errWord_reserved s.latchedOp r
  errCode := by
    rw [State.complete_err, extractLsb'_errWord]
    exact code_le_four r.code hr
  rgb := h.rgb
  packed := h.packed
  hex := h.hex
  doneCode := h.doneCode

/-- The clause is about ERR, the three result words and the code of SCROLL_DONE, and nothing else. -/
theorem State.RegistersSound.of_done {s t : State} (h : s.RegistersSound) (he : t.err = s.err) (hr : t.resultRgb = s.resultRgb)
    (hp : t.result565 = s.result565) (hx : t.hexout1 = s.hexout1) (hd : t.done.code = 0 ∨ t.done.code = 2 ∨ t.done.code = 3) :
    t.RegistersSound :=
  ⟨he ▸ h.err, he ▸ h.errCode, hr ▸ h.rgb, hp ▸ h.packed, hx ▸ h.hex, hd⟩

/-- HOST acknowledges a completion and leaves its code (log 24). -/
theorem HostEffect.registers {s t : State} (h : HostEffect s t) (hs : s.RegistersSound) : t.RegistersSound := by
  cases h <;> exact hs.of_done rfl rfl rfl rfl hs.doneCode

/-- The bits of a word above its value read zero. -/
theorem field_eq_zero_of_lt (w : Word) (lo n : Nat) (h : w.toNat < 2 ^ lo) : w.extractLsb' lo n = 0 := by
  apply BitVec.eq_of_toNat_eq
  rw [field_toNat, Nat.div_eq_of_lt h, Nat.zero_mod]
  exact BitVec.toNat_zero.symm

/-- The byte of RESULT_RGB above B reads zero (10_state R35). -/
theorem rgbWord_reserved (c : Rgb) : (rgbWord c).extractLsb' 24 8 = 0 := by
  refine field_eq_zero_of_lt _ 24 8 ?_
  rw [rgbWord_toNat]
  have := c.b.isLt
  have := c.g.isLt
  have := c.r.isLt
  omega

/-- The upper half of RESULT_565 reads zero (10_state R35). -/
theorem packedWord_reserved (p : Half) : (p.setWidth 32).extractLsb' 16 16 = 0 := by
  refine field_eq_zero_of_lt _ 16 16 ?_
  rw [BitVec.toNat_setWidth]
  exact (Nat.mod_le _ _).trans_lt p.isLt

/-- Byte 7 of HEXOUT reads zero (10_state R36). -/
theorem hexWord_reserved (a b c : Byte) : (wordOfBytes a b c 0).extractLsb' 24 8 = 0 := by
  refine field_eq_zero_of_lt _ 24 8 ?_
  rw [wordOfBytes, toNat_cat4]
  have := a.isLt
  have := b.isLt
  have := c.isLt
  simp only [BitVec.toNat_ofNat, BitVec.ofNat_eq_ofNat]
  omega

/-- With CANCEL_REPORTS false the hand-over posts no completion (43_scroll R161, R162). -/
theorem State.offer_done (r : ScrollCall) (s : State) : (s.offer false r).done = s.done := by
  cases hp : s.sq.phase with
  | idle => rw [s.offer_of_idle false r hp]
  | run => rw [s.offer_of_run false r hp]; rfl
  | settle => rw [s.offer_of_waiting false r (.inl hp)]; rfl
  | start => rw [s.offer_of_waiting false r (.inr hp)]; rfl
  | finish => rw [s.offer_of_finish false r hp]; exact ite_self _

/-- An accepted message posts OK at once, or no completion (43_scroll R160). -/
theorem State.acceptMessage_doneCode (len : Nat) (tc bc : Rgb) (s : State) :
    (s.acceptMessage false len tc bc).done.code = 0 ∨ (s.acceptMessage false len tc bc).done.code = s.done.code := by
  by_cases h : filterText (textBytes s.mem len) = []
  · rw [acceptMessage_of_empty false len tc bc s h]
    exact .inl rfl
  · rw [acceptMessage_of_text false len tc bc s h, State.offer_done]
    exact .inr rfl

theorem Ending.registers {i : Instr} {s u : State} (h : Ending i s u) (hs : s.RegistersSound) : u.RegistersSound := by
  cases h with
  | rgb c => exact ⟨hs.err, hs.errCode, rgbWord_reserved c, hs.packed, hs.hex, hs.doneCode⟩
  | packed p => exact ⟨hs.err, hs.errCode, hs.rgb, packedWord_reserved p, hs.hex, hs.doneCode⟩
  | hex a b c d e f g => exact ⟨hs.err, hs.errCode, hs.rgb, hs.packed, hexWord_reserved e f g, hs.doneCode⟩
  | unchanged | rotation | lowlight | matrix => exact hs.of_done rfl rfl rfl rfl hs.doneCode
  | message len tc bc =>
    have hw := s.acceptMessage_writes Config.cancelReports len tc bc
    refine hs.of_done (congrArg State.err hw :) (congrArg State.resultRgb hw :) (congrArg State.result565 hw :)
      (congrArg State.hexout1 hw :) ?_
    rcases s.acceptMessage_doneCode len tc bc with hc | hc
    · exact .inl hc
    · exact hc.symm ▸ hs.doneCode

theorem ExecResult.registers {i : Instr} {s t : State} (h : ExecResult i s t) (hs : s.RegistersSound) : t.RegistersSound := by
  cases h with
  | error r hr => exact hs.complete r (by rcases hr with hr | hr <;> simp [hr])
  | success u hu => exact (hu.registers hs).complete .success nofun
  | flush | opening | closing => exact hs.of_done rfl rfl rfl rfl hs.doneCode

/-- SEQ completes a call with OK, STATE or DEVICE_IO (43_scroll R164, R166, R169). -/
theorem SeqMove.doneCode {s t : State} (h : SeqMove s t) (hs : s.done.code = 0 ∨ s.done.code = 2 ∨ s.done.code = 3) :
    t.done.code = 0 ∨ t.done.code = 2 ∨ t.done.code = 3 := by
  cases h with
  | startFails | frameFails | finishFails => exact .inr (.inl rfl)
  | start | finish =>
    rw [State.seqFlush_done, State.fillPixels_done]
    exact hs
  | resume k p =>
    cases p.answer with
    | fail c => cases k <;> exact .inr (.inr rfl)
    | ok =>
      cases k with
      | start | frame => exact hs
      | finish => exact .inl rfl
  | take | frame | request => exact hs

/-- A safe pipeline in which an execution is over: its report is of DEVICE's answer (60_exceptions R183). -/
theorem fromDevice_of_outcome {s : State} {r : Report} (h : s.PipelineSound) (ho : s.outcome = some r) : r.FromDevice := by
  cases h.stage with
  | ended q _ _ _ _ hq _ hd => exact Option.some.inj (ho.symm.trans hq) ▸ hd
  | _ => simp_all

theorem Report.FromDevice.code_ne {r : Report} (h : r.FromDevice) : r.code ≠ .cancelled := by
  rcases h with rfl | ⟨c, rfl⟩ <;> nofun

theorem StepEffect.registers {s t : State} {rest : List Event} {n : Nat} (h : StepEffect s rest n t) (hs : s.RegistersSound)
    (hp : s.PipelineSound) : t.RegistersSound := by
  have hs' : (s.scheduled rest n).RegistersSound := hs.of_done rfl rfl rfl rfl hs.doneCode
  cases h with
  | host u r hu ht =>
    have hu' := hu.registers hs'
    exact ht ▸ hu'.of_done rfl rfl rfl rfl hu'.doneCode
  | illegal e _ _ _ ht => exact ht ▸ hs'.complete _ nofun
  | execute i _ _ _ hx => exact hx.registers hs'
  | complete r _ ho ht =>
    have hs'' : ({ s.scheduled rest n with outcome := none } : State).RegistersSound := hs.of_done rfl rfl rfl rfl hs.doneCode
    exact ht ▸ hs''.complete r (fromDevice_of_outcome hp ho).code_ne
  | resume p _ _ _ hr => cases hr <;> exact hs.of_done rfl rfl rfl rfl hs.doneCode
  | seq hq =>
    have hw := hq.writes
    exact hs.of_done (congrArg State.err hw :) (congrArg State.resultRgb hw :) (congrArg State.result565 hw :)
      (congrArg State.hexout1 hw :) (hq.doneCode hs.doneCode)
  | tick _ ht => exact (ht.trans (State.tick_writes _)) ▸ hs.of_done rfl rfl rfl rfl hs.doneCode
  | reset _ ht => exact ht ▸ resetStateIsSafe.registers.of_done rfl rfl rfl rfl (.inl rfl)
  | request _ _ _ _ _ ht | answer _ _ _ _ _ ht | wait ht => exact ht ▸ hs.of_done rfl rfl rfl rfl hs.doneCode

end Sys2Proof.Machine
end

section
/-!
SUPPORT. The sequencer record stays sound (10_state R49): what it holds in each SEQ_STATE, kept by the tick, by SHOWMSG's hand-over and by
SEQ's own steps.
-/

namespace Sys2Proof.Machine

theorem Sequencer.sound_idle_iff {q : Sequencer} (h : q.phase = .idle) : q.Sound ↔ q.reqValid = false := by
  unfold Sequencer.Sound
  rw [h]

theorem Sequencer.sound_start_iff {q : Sequencer} (h : q.phase = .start) : q.Sound ↔ q.reqValid = true ∧ q.req.Sound := by
  unfold Sequencer.Sound
  rw [h]

theorem Sequencer.sound_settle_iff {q : Sequencer} (h : q.phase = .settle) :
    q.Sound ↔ q.reqValid = true ∧ q.req.Sound ∧ 1 ≤ q.settleCnt.toNat ∧ q.settleCnt.toNat ≤ 1000 := by
  unfold Sequencer.Sound
  rw [h]

theorem Sequencer.sound_run_iff {q : Sequencer} (h : q.phase = .run) :
    q.Sound ↔ q.reqValid = false ∧ q.Animating ∧ q.tcount.toNat < q.cur.interval.toNat := by
  unfold Sequencer.Sound
  rw [h]

theorem Sequencer.sound_finish_iff {q : Sequencer} (h : q.phase = .finish) :
    q.Sound ↔ q.Animating ∧ (q.reqValid = true → q.req.Sound) := by
  unfold Sequencer.Sound
  rw [h]

/-- The counters that an animation does not count with are free to change. -/
theorem Sequencer.Animating.of_eq {q q' : Sequencer} (h : q.Animating) (hc : q'.cur = q.cur) (hw : q'.tw = q.tw)
    (ho : q'.offset = q.offset) : q'.Animating :=
  ⟨hc ▸ h.call, hw ▸ hc ▸ h.width, ho ▸ hw ▸ h.offset⟩

/-- TCOUNT stays below the interval: it counts on, or the interval is over and it starts again (43_scroll R163). -/
theorem Sequencer.runTick_sound {q : Sequencer} (hp : q.phase = .run) (h : q.Sound) : q.runTick.Sound := by
  obtain ⟨hv, ha, hlt⟩ := (sound_run_iff hp).mp h
  have hten := ha.call.interval
  by_cases hc : q.tcount + 1 = q.cur.interval
  · rw [q.runTick_of_due hc]
    exact Iff.mpr (sound_run_iff hp) ⟨hv, ha.of_eq rfl rfl rfl, show 0 < q.cur.interval.toNat by omega⟩
  · rw [q.runTick_of_not_due hc]
    refine Iff.mpr (sound_run_iff hp) ⟨hv, ha.of_eq rfl rfl rfl, ?_⟩
    have hsucc := q.tcount_succ_toNat hlt
    have hne : (q.tcount + 1).toNat ≠ q.cur.interval.toNat := mt BitVec.eq_of_toNat_eq hc
    show (q.tcount + 1).toNat < q.cur.interval.toNat
    omega

/-- SETTLE_CNT counts down to START (43_scroll R163). -/
theorem Sequencer.settleTick_sound {q : Sequencer} (hp : q.phase = .settle) (h : q.Sound) : q.settleTick.Sound := by
  obtain ⟨hv, hr, hpos, hle⟩ := (sound_settle_iff hp).mp h
  by_cases hc : q.settleCnt - 1 = 0
  · rw [q.settleTick_of_over hc]
    exact Iff.mpr (sound_start_iff rfl) ⟨hv, hr⟩
  · rw [q.settleTick_of_not_over hc]
    have hpred : (q.settleCnt - 1).toNat = q.settleCnt.toNat - 1 := BitVec.toNat_sub_of_le (BitVec.le_def.mpr hpos)
    have hne : (q.settleCnt - 1).toNat ≠ 0 := fun he => hc (BitVec.eq_of_toNat_eq he)
    refine Iff.mpr (sound_settle_iff hp) ⟨hv, hr, ?_, ?_⟩
    · show 1 ≤ (q.settleCnt - 1).toNat
      omega
    · show (q.settleCnt - 1).toNat ≤ 1000
      omega

theorem State.tick_sound {s : State} (h : s.sq.Sound) : s.tick.sq.Sound := by
  cases hp : s.sq.phase with
  | run =>
    rw [s.tick_of_run hp]
    exact Sequencer.runTick_sound hp h
  | settle =>
    rw [s.tick_of_settle hp]
    exact Sequencer.settleTick_sound hp h
  | idle | start | finish => rwa [s.tick_of_other (by simp [hp]) (by simp [hp])]

/-- The frame interval is at least 10 (43_scroll R159). -/
theorem ten_le_scrollInterval (speed : Word) : 10 ≤ (scrollInterval speed).toNat := by
  have := speed.isLt
  rw [scrollInterval_eq, BitVec.toNat_ofNat, Nat.mod_eq_of_lt (by omega)]
  exact le_max_left 10 _

/-- The call of an accepted message with a text: its filtered text fits, and its interval is long enough (43_scroll R155, R159, R160). -/
theorem State.messageCall_sound (len : Nat) (tc bc : Rgb) (s : State) (hlen : len ≤ 256)
    (ht : filterText (textBytes s.mem len) ≠ []) : (s.messageCall len tc bc).Sound := by
  have hle : (filterText (textBytes s.mem len)).length ≤ 256 := by
    refine (length_filterText_le _).trans ?_
    rwa [textBytes, List.length_map, List.length_range]
  have hn : (s.messageCall len tc bc).n.toNat = (filterText (textBytes s.mem len)).length := Nat.mod_eq_of_lt (by omega)
  exact ⟨hn.symm, hn ▸ List.length_pos_iff.mpr ht, hn ▸ hle, supported_of_mem_filterText _, ten_le_scrollInterval _⟩

/-- A sound call handed over is SEQ's next one, whatever SEQ_STATE finds it (43_scroll R161). -/
theorem State.offer_sound {r : ScrollCall} {s : State} (cr : Bool) (hr : r.Sound) (h : s.sq.Sound) : (s.offer cr r).sq.Sound := by
  cases hp : s.sq.phase with
  | idle =>
    rw [s.offer_of_idle cr r hp]
    exact Iff.mpr (Sequencer.sound_start_iff rfl) ⟨rfl, hr⟩
  | run =>
    rw [s.offer_of_run cr r hp]
    exact Iff.mpr (Sequencer.sound_settle_iff rfl) ⟨rfl, hr, show 1 ≤ 1000 by decide, show 1000 ≤ 1000 from le_rfl⟩
  | settle =>
    obtain ⟨-, -, hcount⟩ := (Sequencer.sound_settle_iff hp).mp h
    rw [s.offer_of_waiting cr r (.inl hp)]
    exact Iff.mpr (Sequencer.sound_settle_iff hp) ⟨rfl, hr, hcount⟩
  | start =>
    rw [s.offer_of_waiting cr r (.inr hp)]
    exact Iff.mpr (Sequencer.sound_start_iff hp) ⟨rfl, hr⟩
  | finish =>
    obtain ⟨ha, -⟩ := (Sequencer.sound_finish_iff hp).mp h
    rw [s.offer_of_finish cr r hp]
    exact Iff.mpr (Sequencer.sound_finish_iff hp) ⟨ha.of_eq rfl rfl rfl, fun _ => hr⟩

/-- The soundness of the record does not depend on LAST_TAG. -/
theorem State.tagged_sound {s : State} (h : s.sq.Sound) : s.tagged.sq.Sound := by
  cases hp : s.sq.phase with
  | idle => exact Iff.mpr (Sequencer.sound_idle_iff hp) ((Sequencer.sound_idle_iff hp).mp h)
  | start => exact Iff.mpr (Sequencer.sound_start_iff hp) ((Sequencer.sound_start_iff hp).mp h)
  | settle => exact Iff.mpr (Sequencer.sound_settle_iff hp) ((Sequencer.sound_settle_iff hp).mp h)
  | run =>
    obtain ⟨hv, ha, hlt⟩ := (Sequencer.sound_run_iff hp).mp h
    exact Iff.mpr (Sequencer.sound_run_iff hp) ⟨hv, ha.of_eq rfl rfl rfl, hlt⟩
  | finish =>
    obtain ⟨ha, hr⟩ := (Sequencer.sound_finish_iff hp).mp h
    exact Iff.mpr (Sequencer.sound_finish_iff hp) ⟨ha.of_eq rfl rfl rfl, hr⟩

theorem State.acceptMessage_sound {s : State} (cr : Bool) (len : Nat) (tc bc : Rgb) (hlen : len ≤ 256) (h : s.sq.Sound) :
    (s.acceptMessage cr len tc bc).sq.Sound := by
  by_cases ht : filterText (textBytes s.mem len) = []
  · rw [acceptMessage_of_empty cr len tc bc s ht]
    exact State.tagged_sound h
  · rw [acceptMessage_of_text cr len tc bc s ht]
    exact State.offer_sound cr (s.messageCall_sound len tc bc hlen ht) (State.tagged_sound h)

/-- Of the commands only SHOWMSG reaches the sequencer record. -/
theorem ExecResult.sequencer {i : Instr} {s t : State} (h : ExecResult i s t) (hs : s.sq.Sound) : t.sq.Sound := by
  cases h with
  | success u hu =>
    cases hu with
    | message len tc bc _ hlen => exact State.acceptMessage_sound _ len tc bc hlen hs
    | _ => exact hs
  | _ => exact hs

/-- TW in numbers (43_scroll R156). -/
theorem bitmapWidth_toNat (n : BitVec 9) : (bitmapWidth n).toNat = 16 + 6 * n.toNat := by
  have := n.isLt
  rw [bitmapWidth_eq, BitVec.toNat_ofNat]
  exact Nat.mod_eq_of_lt (by omega)

/-- A sound request that becomes the running call animates from its first column (43_scroll R164). -/
theorem Sequencer.Animating.begin {r : ScrollCall} {q : Sequencer} (hr : r.Sound) (hc : q.cur = r) (hw : q.tw = bitmapWidth r.n)
    (ho : q.offset = 0) : q.Animating where
  call := hc ▸ hr
  width := by rw [hw, hc, bitmapWidth_toNat]
  offset := by rw [ho]; exact Nat.zero_le _

/-- The end of FINISH leaves START with the request that waits, and IDLE without one (43_scroll R169). -/
theorem State.endFinish_sound {s : State} (code : ErrCode) (cause : Byte) (hp : s.sq.phase = .finish) (h : s.sq.Sound) :
    (s.endFinish code cause).sq.Sound := by
  obtain ⟨-, hr⟩ := (Sequencer.sound_finish_iff hp).mp h
  rw [State.endFinish_eq]
  by_cases hv : s.sq.reqValid = true
  · exact Iff.mpr (Sequencer.sound_start_iff (if_pos hv)) ⟨hv, hr hv⟩
  · exact Iff.mpr (Sequencer.sound_idle_iff (if_neg hv)) (Bool.eq_false_iff.mpr hv)

/-- However SEQ's operation ends, it leaves a sound record (43_scroll R164, R166, R169). -/
theorem State.seqResume_sound {s : State} (k : SeqKind) (a : DevAnswer) (hk : k.Stands s) (h : s.sq.Sound) :
    (s.seqResume k a).sq.Sound := by
  obtain ⟨-, hp⟩ := hk
  cases k with
  | start =>
    obtain ⟨-, hr⟩ := (Sequencer.sound_start_iff hp).mp h
    cases a with
    | ok =>
      have hten := hr.interval
      exact Iff.mpr (Sequencer.sound_run_iff rfl) ⟨rfl, .begin hr rfl rfl rfl, show 0 < s.sq.req.interval.toNat by omega⟩
    | fail c => exact Iff.mpr (Sequencer.sound_idle_iff rfl) rfl
  | frame =>
    obtain ⟨hrun, hlt⟩ := hp
    obtain ⟨hv, ha, hcount⟩ := (Sequencer.sound_run_iff hrun).mp h
    cases a with
    | ok =>
      have hcol : s.sq.offset.toNat < s.sq.tw.toNat := BitVec.lt_def.mp hlt
      have hnext : (s.sq.offset + 1).toNat ≤ s.sq.tw.toNat := by
        have := s.sq.tw.isLt
        rw [BitVec.toNat_add_of_lt (show s.sq.offset.toNat + 1 < 2 ^ 16 by omega)]
        exact hcol
      exact Iff.mpr (Sequencer.sound_run_iff hrun) ⟨hv, ⟨ha.call, ha.width, hnext⟩, hcount⟩
    | fail c => exact Iff.mpr (Sequencer.sound_idle_iff rfl) hv
  | finish =>
    cases a with
    | ok => exact State.endFinish_sound .ok 0 hp h
    | fail c => exact State.endFinish_sound .deviceIo c hp h

theorem SeqMove.sequencer {s t : State} (h : SeqMove s t) (hs : s.sq.Sound)
    (hk : ∀ k p, s.pipe = .seq k → s.devAns = some p → k.Stands s) : t.sq.Sound := by
  cases h with
  | startFails => exact Iff.mpr (Sequencer.sound_idle_iff rfl) rfl
  | start | finish =>
    rw [State.seqFlush_sq, State.fillPixels_sq]
    exact hs
  | take hp =>
    obtain ⟨hv, ha, -⟩ := (Sequencer.sound_run_iff hp).mp hs
    exact Iff.mpr (Sequencer.sound_finish_iff rfl) ⟨ha.of_eq rfl rfl rfl, fun hv' => absurd (hv.symm.trans hv') nofun⟩
  | frameFails hp =>
    obtain ⟨hv, -⟩ := (Sequencer.sound_run_iff hp).mp hs
    exact Iff.mpr (Sequencer.sound_idle_iff rfl) hv
  | frame hp =>
    obtain ⟨hv, ha, hcount⟩ := (Sequencer.sound_run_iff hp).mp hs
    exact Iff.mpr (Sequencer.sound_run_iff hp) ⟨hv, ha.of_eq rfl rfl rfl, hcount⟩
  | finishFails hp => exact State.endFinish_sound .state _ hp hs
  | request => exact hs
  | resume k p hp ha => exact State.seqResume_sound k p.answer (hk k p hp ha) hs

theorem StepEffect.sequencer {s t : State} {rest : List Event} {n : Nat} (h : StepEffect s rest n t) (hs : s.sq.Sound)
    (hp : s.PipelineSound) : t.sq.Sound := by
  cases h with
  | host u r hu ht => exact ht ▸ (congrArg (·.sq.Sound) hu.writes).mpr hs
  | execute i _ _ _ hx => exact hx.sequencer hs
  | resume p _ _ _ hr => cases hr <;> exact hs
  | seq hq => exact hq.sequencer hs fun k p hk ha => stands_of_answer hp hk ha
  | tick _ ht => exact ht ▸ State.tick_sound hs
  | reset _ ht => exact ht ▸ resetStateIsSafe.sequencer
  | illegal _ _ _ _ ht | request _ _ _ _ _ ht | complete _ _ _ ht | answer _ _ _ _ _ ht | wait ht => exact ht ▸ hs

end Sys2Proof.Machine
end

section
/-!
SUPPORT. The pipeline stays sound (20_memory R78, R80, R85; 60_exceptions R198): the moves of the other agents leave an operation at its
stage, and each of its own steps takes it to the next one.
-/

namespace Sys2Proof.Machine

/-- A request of a host command still stands where LIFECYCLE and the framebuffer are the same. -/
theorem DevRequest.FromHost.of_eq {r : DevRequest} {s t : State} (h : r.FromHost s) (hl : t.lifecycle = s.lifecycle)
    (hb : t.fbBytes = s.fbBytes) : r.FromHost t := by
  cases r with
  | openDev | closeDev => exact hl.trans h
  | write b => exact ⟨hl.trans h.1, h.2.trans hb.symm⟩

/-- The same operation is at the same stage, with the same framebuffer: what the moves of the other agents leave it. -/
structure SameOperation (s t : State) : Prop extends SameStage s t where
  devAns : t.devAns = s.devAns
  outcome : t.outcome = s.outcome
  lifecycle : t.lifecycle = s.lifecycle
  fbBytes : t.fbBytes = s.fbBytes
  valid : s.pipe = .host → t.pending.valid = s.pending.valid
  stands : ∀ k, s.pipe = .seq k → k.Stands s → k.Stands t

theorem State.PipelineSound.of_same {s t : State} (h : s.PipelineSound) (hk : SameOperation s t) : t.PipelineSound := by
  unfold State.PipelineSound
  rw [hk.pipe, hk.flushDue, hk.devReq, hk.devAns, hk.outcome]
  cases h.stage with
  | free hp hf hd ha ho => rw [hp, hf, hd, ha, ho]; trivial
  | due hp hf hd ha ho hv hl => rw [hp, hf, hd, ha, ho]; exact ⟨(hk.valid hp).trans hv, hk.lifecycle.trans hl⟩
  | asked _ hp hf hd ha ho hv hr | answered _ hp hf hd ha ho hv hr =>
    rw [hp, hf, hd, ha, ho]
    exact ⟨(hk.valid hp).trans hv, hr.of_eq hk.lifecycle hk.fbBytes⟩
  | ended _ hp hf hd ha ho hv hr => rw [hp, hf, hd, ha, ho]; exact ⟨(hk.valid hp).trans hv, hr⟩
  | seqDue k hp hf hd ha ho hs => rw [hp, hf, hd, ha, ho]; exact hk.stands k hp hs
  | seqAsked k _ hp hf hd ha ho hb hs | seqAnswered k _ hp hf hd ha ho hb hs =>
    rw [hp, hf, hd, ha, ho]
    exact ⟨hk.fbBytes ▸ hb, hk.stands k hp hs⟩

/-- The 128 bytes of a flush depend on the bytes of the framebuffer only (20_memory R72). -/
theorem fbBytes_congr {s t : State} (h : ∀ a, framebufferOffset a → t.mem.readByte a = s.mem.readByte a) : t.fbBytes = s.fbBytes := by
  refine List.map_congr_left fun j hj => h _ ?_
  have := List.mem_range.mp hj
  unfold Config.pixelCount at this
  unfold framebufferOffset fbBase
  omega

/-- What a SEQ operation waits with stands where LIFECYCLE and the record are the same. -/
theorem SeqKind.Stands.of_eq {k : SeqKind} {s t : State} (h : k.Stands s) (hl : t.lifecycle = s.lifecycle) (hq : t.sq = s.sq) :
    k.Stands t := by
  unfold SeqKind.Stands at h ⊢
  rwa [hl, hq]

/-- HOST writes no byte of the framebuffer (20_memory R61, R65). -/
theorem HostEffect.fbBytes {s t : State} (h : HostEffect s t) : t.fbBytes = s.fbBytes := by
  cases h with
  | stored o v _ _ ho =>
    refine fbBytes_congr fun a ha => Memory.readByte_writeWord_other _ _ _ _ ?_
    unfold framebufferOffset at ha
    omega
  | _ => rfl

/-- While a host command is in progress the busy interlock drops a CMD write (70_reset_and_hazards R210). -/
theorem HostEffect.pending {s t : State} (h : HostEffect s t) (hp : s.pipe = .host) : t.pending = s.pending := by
  cases h with
  | latched w hb =>
    unfold State.cmdBusy at hb
    simp [hp] at hb
  | _ => rfl

theorem HostEffect.sameOperation {s t : State} (h : HostEffect s t) : SameOperation s t where
  toSameStage := .of_eq h.writes ⟨rfl, rfl, rfl⟩
  devAns := (congrArg State.devAns h.writes :)
  outcome := (congrArg State.outcome h.writes :)
  lifecycle := (congrArg State.lifecycle h.writes :)
  fbBytes := h.fbBytes
  valid hp := by rw [h.pending hp]
  stands _ _ hk := hk.of_eq (congrArg State.lifecycle h.writes :) (congrArg State.sq h.writes :)

/-- A tick leaves SEQ_STATE, and the columns shown and to show, of an operation that waits (43_scroll R163). -/
theorem SeqKind.Stands.tick {k : SeqKind} {s : State} (h : k.Stands s) : k.Stands s.tick := by
  obtain ⟨hl, hp⟩ := h
  cases k with
  | start | finish =>
    rw [s.tick_of_other (by simp [hp]) (by simp [hp])]
    exact ⟨hl, hp⟩
  | frame =>
    rw [s.tick_of_run hp.1]
    refine ⟨hl, ?_⟩
    by_cases hc : s.sq.tcount + 1 = s.sq.cur.interval
    · rw [s.sq.runTick_of_due hc]
      exact hp
    · rw [s.sq.runTick_of_not_due hc]
      exact hp

theorem State.tick_sameOperation (s : State) : SameOperation s s.tick where
  toSameStage := .of_eq s.tick_writes ⟨rfl, rfl, rfl⟩
  devAns := (congrArg State.devAns s.tick_writes :)
  outcome := (congrArg State.outcome s.tick_writes :)
  lifecycle := (congrArg State.lifecycle s.tick_writes :)
  fbBytes := (congrArg State.fbBytes s.tick_writes :)
  valid _ := (congrArg (·.pending.valid) s.tick_writes :)
  stands _ _ hk := hk.tick

/-- No SEQ operation waits while TAKE is ready: FRAME's column is still to be shown (43_scroll R165, R166). -/
theorem SeqKind.not_stands_of_take (k : SeqKind) {s : State} (hp : s.sq.phase = .run) (ho : ¬ s.sq.offset < s.sq.tw) :
    ¬ k.Stands s := by
  rintro ⟨-, h⟩
  cases k with
  | start | finish => exact absurd (hp.symm.trans h) nofun
  | frame => exact ho h.2

/-- With PIPE free no operation is at any stage (20_memory R78). -/
theorem State.PipelineSound.of_free {s : State} (h : s.PipelineSound) (hp : s.pipe = .free) :
    s.flushDue = false ∧ s.devReq = none ∧ s.devAns = none ∧ s.outcome = none := by
  cases h.stage with
  | free _ hf hd ha ho => exact ⟨hf, hd, ha, ho⟩
  | _ => simp_all

/-- PIPE is freed with no stage left behind. -/
theorem pipelineSound_of_freed {t : State} (hp : t.pipe = .free) (hf : t.flushDue = false) (hd : t.devReq = none)
    (ha : t.devAns = none) (ho : t.outcome = none) : t.PipelineSound := PipelineStage.sound t (.free hp hf hd ha ho)

/-- A command's execute step begins with PIPE free, and leaves it free, its flush due, or its request outstanding (30_encoding R91). -/
theorem ExecResult.pipelineSound {i : Instr} {s t : State} (h : ExecResult i s t) (hs : s.PipelineSound) (hp : s.pipe = .free) :
    t.PipelineSound := by
  obtain ⟨hf, hd, ha, ho⟩ := hs.of_free hp
  have hans : t.devAns = none := (congrArg State.devAns h.writes :).trans ha
  have hout : t.outcome = none := (congrArg State.outcome h.writes :).trans ho
  cases h with
  | error r => exact pipelineSound_of_freed rfl hf hd hans hout
  | success u hu =>
    exact pipelineSound_of_freed rfl (hu.sameStage.flushDue.trans hf) (hu.sameStage.devReq.trans hd) hans hout
  | flush ps hl => exact PipelineStage.sound _ (.due rfl rfl hd hans hout rfl hl)
  | opening _ hl => exact PipelineStage.sound _ (.asked .openDev rfl hf rfl hans hout rfl hl)
  | closing _ hl => exact PipelineStage.sound _ (.asked .closeDev rfl hf rfl hans hout rfl hl)

/-- A flush that is due becomes the request that is outstanding (20_memory R80, R85). -/
theorem State.PipelineSound.requestFlush {s : State} (h : s.PipelineSound) (hf : s.flushDue = true) :
    s.requestFlush.PipelineSound := by
  refine PipelineStage.sound _ ?_
  cases h.stage with
  | due hp _ _ ha ho hv hl => exact .asked _ hp rfl rfl ha ho hv ⟨hl, rfl⟩
  | seqDue k hp _ _ ha ho hk => exact .seqAsked k _ hp rfl rfl ha ho rfl (hk.of_eq rfl rfl)
  | _ => simp_all

/-- The request that is outstanding becomes the answer to take up (60_exceptions R198). -/
theorem State.PipelineSound.delivered {s : State} {r : DevRequest} (h : s.PipelineSound) (hr : s.devReq = some r) (a : DevAnswer) :
    (Delivered s r a).PipelineSound := by
  refine PipelineStage.sound _ ?_
  cases h.stage with
  | asked q hp hf hq _ ho hv hq' =>
    obtain rfl := Option.some.inj (hr.symm.trans hq)
    exact .answered ⟨r, a⟩ hp hf rfl rfl ho hv (hq'.of_eq rfl rfl)
  | seqAsked k q hp hf hq _ ho hb hk =>
    obtain rfl := Option.some.inj (hr.symm.trans hq)
    exact .seqAnswered k ⟨r, a⟩ hp hf rfl rfl ho hb (hk.of_eq rfl rfl)
  | _ => simp_all

theorem DevAnswer.report_fromDevice (a : DevAnswer) : a.report.FromDevice := by
  cases a with
  | ok => exact .inl rfl
  | fail c => exact .inr ⟨c, rfl⟩

/-- What taking up an answer leaves: the stage in which the execution is over, with a report of DEVICE's (30_encoding R91 step 2). -/
theorem Resumes.ended {s t : State} {p : DevReply} (h : Resumes s p t) :
    SameStage s t ∧ t.devAns = none ∧ t.pending = s.pending ∧ ∃ r : Report, t.outcome = some r ∧ r.FromDevice := by
  cases h with
  | opened => exact ⟨⟨rfl, rfl, rfl⟩, rfl, rfl, _, rfl, .inl rfl⟩
  | notOpened c => exact ⟨⟨rfl, rfl, rfl⟩, rfl, rfl, _, rfl, .inr ⟨c, rfl⟩⟩
  | closed a | flushed b a => exact ⟨⟨rfl, rfl, rfl⟩, rfl, rfl, _, rfl, a.report_fromDevice⟩

theorem Resumes.pipelineSound {s t : State} {p : DevReply} (h : Resumes s p t) (hs : s.PipelineSound) (hp : s.pipe = .host)
    (ha : s.devAns = some p) : t.PipelineSound := by
  obtain ⟨hk, hans, hpend, r, hr, hdev⟩ := h.ended
  refine PipelineStage.sound t ?_
  cases hs.stage with
  | answered q _ hf hd _ _ hv =>
    exact .ended r (hk.pipe.trans hp) (hk.flushDue.trans hf) (hk.devReq.trans hd) hans hr (hpend ▸ hv) hdev
  | _ => simp_all

/-- Completing a host command frees PIPE, with nothing else in progress (30_encoding R91 step 3). -/
theorem State.PipelineSound.completeStep {s : State} {r : Report} (h : s.PipelineSound) (ho : s.outcome = some r) :
    (s.completeStep r).PipelineSound := by
  cases h.stage with
  | ended q _ hf hd ha => exact pipelineSound_of_freed rfl hf hd ha rfl
  | _ => simp_all

/-- A SEQ operation that has updated FB waits with its flush due (43_scroll R164, R166, R169; log 6). -/
theorem seqFlushing_pipelineSound {k : SeqKind} {s : State} (m : Memory) (hs : s.PipelineSound) (hp : s.pipe = .free)
    (hk : k.Stands s) : (SeqFlushing k s m).PipelineSound := by
  obtain ⟨-, hd, ha, ho⟩ := hs.of_free hp
  exact PipelineStage.sound _ (.seqDue k rfl rfl hd ha ho (hk.of_eq rfl rfl))

theorem SeqMove.pipelineSound {s t : State} (h : SeqMove s t) (hs : s.PipelineSound) : t.PipelineSound := by
  cases h with
  | startFails _ _ hp | frameFails _ _ _ hp | finishFails _ hp =>
    obtain ⟨hf, hd, ha, ho⟩ := hs.of_free hp
    exact pipelineSound_of_freed rfl hf hd ha ho
  | start hq _ hp hl =>
    rw [State.seqFlush_fillPixels]
    exact seqFlushing_pipelineSound _ hs hp ⟨hl, hq⟩
  | frame hq _ hlt hp hl =>
    obtain ⟨hf, hd, ha, ho⟩ := hs.of_free hp
    rw [State.seqFlush_putGrid]
    exact seqFlushing_pipelineSound _ (pipelineSound_of_freed hp hf hd ha ho) hp ⟨hl, hq, hlt⟩
  | finish hq hp hl =>
    rw [State.seqFlush_fillPixels]
    exact seqFlushing_pipelineSound _ hs hp ⟨hl, hq⟩
  | take hq _ hlt =>
    exact hs.of_same ⟨⟨rfl, rfl, rfl⟩, rfl, rfl, rfl, rfl, fun _ => rfl, fun k _ hk => absurd hk (k.not_stands_of_take hq hlt)⟩
  | request k _ _ hf => exact hs.requestFlush hf
  | resume k p hp ha =>
    obtain ⟨q, d, he⟩ := State.seqResume_frame k p.answer s
    rw [he]
    cases hs.stage with
    | seqAnswered _ _ _ hf hd _ ho => exact pipelineSound_of_freed rfl hf hd rfl ho
    | _ => simp_all

theorem StepEffect.pipelineSound {s t : State} {rest : List Event} {n : Nat} (h : StepEffect s rest n t) (hs : s.PipelineSound) :
    t.PipelineSound := by
  have hs' : (s.scheduled rest n).PipelineSound := hs
  cases h with
  | host u r hu ht =>
    have hu' : u.PipelineSound := hs'.of_same hu.sameOperation
    exact ht ▸ hu'
  | illegal e _ hp _ ht =>
    obtain ⟨hf, hd, ha, ho⟩ := hs.of_free hp
    exact ht ▸ pipelineSound_of_freed rfl hf hd ha ho
  | execute i _ hp _ hx => exact hx.pipelineSound hs' hp
  | resume p hp _ ha hr => exact hr.pipelineSound hs' hp ha
  | request _ _ _ hf _ ht => exact ht ▸ hs'.requestFlush hf
  | complete r _ ho ht => exact ht ▸ hs'.completeStep ho
  | seq hq => exact hq.pipelineSound hs'
  | tick _ ht => exact ht ▸ hs'.of_same (State.tick_sameOperation _)
  | answer a r _ hr _ ht => exact ht ▸ hs'.delivered hr a
  | reset _ ht => exact ht ▸ pipelineSound_of_freed rfl rfl rfl rfl rfl
  | wait ht => exact ht ▸ hs'

end Sys2Proof.Machine
end

section
/-!
SUPPORT. Every step keeps the safe states; and, on top of the same shapes and stages, what an error changes and when a request to DEVICE is
made: the statements of 60_exceptions about R178, R185 and R199.
-/

namespace Sys2Proof.Machine

/-- A safe state steps to a safe state, clause by clause of `State.Safe`. -/
theorem step_safe {s t : State} (hs : s.Safe) (h : step s = .next t) : t.Safe := by
  obtain ⟨rest, n, he⟩ := step_effect s t h
  exact
    { canonical := stepKeepsMemoryCanonical s t hs.canonical h
      mapped := he.mapped hs.mapped
      handle := he.handle hs.handle
      latched := he.latchSound hs.latched
      registers := he.registers hs.registers hs.pipeline
      pipeline := he.pipelineSound hs.pipeline
      sequencer := he.sequencer hs.sequencer hs.pipeline }

/-- Settles O51: a safe state has a next state (`step_answers`), and it is safe. -/
theorem everyStepIsSafe : Obligations.EveryStepIsSafe := fun s hs =>
  (step_answers s hs).imp fun _ h => ⟨h, step_safe hs h⟩

/-! ### Errors -/

/-- Settles O56: an error is recorded by `State.complete` alone; a success has code 0 in ERR, and every other shape keeps PIPE. -/
theorem errorsChangeOnlyErr : Obligations.ErrorsChangeOnlyErr := by
  intro i s t h hp hc
  cases execResult_of_exec i s t h with
  | error r _ => rfl
  | success u _ => exact absurd (extractLsb'_errWord u.latchedOp .success) hc
  | flush | opening | closing => cases hp

/-! ### Device requests -/

/-- How a step that answers `t` treats the outstanding request: it is kept, cleared (answered, or withdrawn by a reset), or a new one of three
kinds is made. -/
inductive RequestEffect (s t : State) : Prop where
  | kept : t.devReq = s.devReq → RequestEffect s t
  | cleared : t.devReq = none → RequestEffect s t
  | opening : s.pipe = .free → s.lifecycle = .uninit → t.devReq = some .openDev → RequestEffect s t
  | closing : s.pipe = .free → s.lifecycle = .ready → t.devReq = some .closeDev → RequestEffect s t
  | flush : s.flushDue = true → t.devReq = some (.write s.fbBytes) → RequestEffect s t

theorem ExecResult.request_effect {i : Instr} {s t : State} (h : ExecResult i s t) (hp : s.pipe = .free) : RequestEffect s t := by
  cases h with
  | error | flush => exact .kept rfl
  | success u hu => exact .kept hu.sameStage.devReq
  | opening _ hl => exact .opening hp hl rfl
  | closing _ hl => exact .closing hp hl rfl

/-- SEQ asks DEVICE for its flushes only (60_exceptions R198). -/
theorem SeqMove.request_effect {s t : State} (h : SeqMove s t) : RequestEffect s t := by
  cases h with
  | start | finish => exact .kept (by rw [State.seqFlush_devReq, State.fillPixels_devReq])
  | request _ _ _ hf => exact .flush hf rfl
  | resume k p =>
    obtain ⟨q, d, he⟩ := State.seqResume_frame k p.answer s
    exact .kept (congrArg State.devReq he :)
  | _ => exact .kept rfl

/-- The agenda and the ARB draws do not bear on a request. -/
theorem RequestEffect.of_scheduled {s t : State} {rest : List Event} {n : Nat} (h : RequestEffect (s.scheduled rest n) t) :
    RequestEffect s t := by
  cases h with
  | kept h => exact .kept h
  | cleared h => exact .cleared h
  | opening hp hl h => exact .opening hp hl h
  | closing hp hl h => exact .closing hp hl h
  | flush hf h => exact .flush hf h

theorem StepEffect.request_effect {s t : State} {rest : List Event} {n : Nat} (h : StepEffect s rest n t) : RequestEffect s t := by
  cases h with
  | execute i _ hp _ hx => exact (hx.request_effect hp).of_scheduled
  | seq hq => exact hq.request_effect.of_scheduled
  | request _ _ _ hf _ ht => exact .flush hf (congrArg State.devReq ht :)
  | answer _ _ _ _ _ ht | reset _ ht => exact .cleared (congrArg State.devReq ht :)
  | host u r hu ht =>
    have hu' : u.devReq = s.devReq := (congrArg State.devReq hu.writes :)
    exact .kept ((congrArg State.devReq ht :).trans hu')
  | resume p _ _ _ hr => exact .kept (by cases hr <;> rfl)
  | tick _ ht => exact .kept (congrArg State.devReq (ht.trans (State.tick_writes _)) :)
  | illegal _ _ _ _ ht | complete _ _ _ ht | wait ht => exact .kept (congrArg State.devReq ht :)

/-- A flush is due only in READY, to an owner of PIPE with no later stage of its operation begun (20_memory R80, R85). -/
theorem State.PipelineSound.of_due {s : State} (h : s.PipelineSound) (hf : s.flushDue = true) :
    s.pipe ≠ .free ∧ s.lifecycle = .ready ∧ s.devReq = none ∧ s.devAns = none ∧ s.outcome = none := by
  cases h.stage with
  | due hp _ hd ha ho _ hl => exact ⟨by rw [hp]; exact nofun, hl, hd, ha, ho⟩
  | seqDue k hp _ hd ha ho hk => exact ⟨by rw [hp]; exact nofun, hk.1, hd, ha, ho⟩
  | _ => simp_all

/-- Settles O60: a new request is INIT's, CLOSE's or a due flush's, and in a safe state each finds the handle as it needs it. -/
theorem deviceRequestsFollowHandle : Obligations.DeviceRequestsFollowHandle := by
  intro s t hs h hne hnone
  have hhandle := hs.handle
  obtain ⟨rest, n, he⟩ := step_effect s t h
  cases he.request_effect with
  | kept hr => exact absurd hr hne
  | cleared hr => exact absurd hr hnone
  | opening hp hl hr =>
    obtain ⟨-, hd, ha, ho⟩ := hs.pipeline.of_free hp
    simp [hr, hd, ha, ho, hp, hhandle, hl]
  | closing hp hl hr =>
    obtain ⟨-, hd, ha, ho⟩ := hs.pipeline.of_free hp
    simp [hr, hd, ha, ho, hp, hhandle, hl]
  | flush hf hr =>
    obtain ⟨hp, hl, hd, ha, ho⟩ := hs.pipeline.of_due hf
    simp [hr, hd, ha, ho, hp, hf, hhandle, hl]

end Sys2Proof.Machine
end

section
/-!
SUPPORT. The two hazards of 70_reset_and_hazards that are counted or dropped: the settling delay, tick by tick (R219), and the writes that
the busy interlock drops or that the window never takes (R210), with the statements about them.
-/

namespace Sys2Proof.Machine

/-! ### The settling delay -/

/-- SEQ begins nothing in SETTLE and in IDLE (43_scroll R164-R169). -/
theorem seqBegin_of_settle_or_idle (s : State) (h : s.sq.phase = .settle ∨ s.sq.phase = .idle) : s.seqBegin = none := by
  rcases h with h | h <;> rw [State.seqBegin, h]

/-- The machine with `n` ticks of the settling delay to come, next in the agenda; with none to come SEQ is in START (43_scroll R163). -/
def State.settlingLeft (s : State) (rest : List Event) (n : Nat) : State :=
  { s with
    agenda := List.replicate n .tick ++ rest
    sq := { s.sq with settleCnt := BitVec.ofNat 11 n, phase := if n = 0 then .start else .settle } }

theorem State.settlingLeft_self (s : State) (rest : List Event) (n : Nat) (hn : n ≠ 0) (hp : s.sq.phase = .settle)
    (hc : s.sq.settleCnt = BitVec.ofNat 11 n) (ha : s.agenda = List.replicate n .tick ++ rest) : s.settlingLeft rest n = s := by
  rw [State.settlingLeft, if_neg hn, ← hp, ← hc, ← ha]

/-- A tick counts SETTLE_CNT down; the last one leads to START (43_scroll R163). -/
theorem Sequencer.settleTick_of_left (q : Sequencer) (n : Nat) (hn : n < 2 ^ 11) (hc : q.settleCnt - 1 = BitVec.ofNat 11 n)
    (hp : q.phase = .settle) :
    q.settleTick = { q with settleCnt := BitVec.ofNat 11 n, phase := if n = 0 then .start else .settle } := by
  by_cases h : n = 0
  · subst h
    exact q.settleTick_of_over hc
  · have hne : BitVec.ofNat 11 n ≠ 0 := fun h0 => h ((Nat.mod_eq_of_lt hn).symm.trans (congrArg BitVec.toNat h0))
    rw [q.settleTick_of_not_over (hc ▸ hne), if_neg h, ← hp, hc]

theorem settleCnt_succ_sub_one (n : Nat) : BitVec.ofNat 11 (n + 1) - 1 = BitVec.ofNat 11 n := by
  rw [BitVec.ofNat_add]
  exact BitVec.add_sub_cancel _ _

/-- One tick of the settling delay (70_reset_and_hazards R219). -/
theorem next_tick_settlingLeft (s : State) (rest : List Event) (n : Nat) (hn : n < 2 ^ 11) :
    Next .tick { s.settlingLeft rest (n + 1) with agenda := List.replicate n .tick ++ rest } = .next (s.settlingLeft rest n) := by
  rw [next_tick, State.tick_of_settle _ rfl, Sequencer.settleTick_of_left _ n hn (settleCnt_succ_sub_one n) rfl]
  rfl

/-- After `k` ticks of the settling delay those left are to come (70_reset_and_hazards R219). -/
theorem core_run_settlingLeft (s : State) (rest : List Event) (n k : Nat) (h : n + k ≤ 2 ^ 11) :
    Sys2Proof.core.run k (s.settlingLeft rest (n + k)) = .next (s.settlingLeft rest n) := by
  induction k with
  | zero => rfl
  | succ k ih =>
    exact (core_run_succ_of_next k _ _ .tick _ rfl (next_tick_settlingLeft s rest (n + k) (by omega))).trans (ih (by omega))

/-- Settles O43: SEQ has no step to begin in SETTLE and in IDLE; the ticks by `core_run_settlingLeft`. -/
theorem settlingTakesThousandTicks : Obligations.SettlingTakesThousandTicks := by
  refine ⟨fun s hp hm => next_seq_of_no_begin s hm (seqBegin_of_settle_or_idle s hp), fun s rest hp hc ha k hk => ?_⟩
  have hrun := core_run_settlingLeft s rest (1000 - k) k (by omega)
  rw [Nat.sub_add_cancel hk, s.settlingLeft_self rest 1000 (by omega) hp hc ha] at hrun
  rw [hrun, State.settlingLeft]
  by_cases h : k < 1000
  · rw [if_pos h, if_neg (by omega)]
  · rw [if_neg h, if_pos (by omega)]

/-! ### The busy interlock -/

/-- With CMD_BUSY = 1 the interlock drops the write and sets HAZ (70_reset_and_hazards R210). -/
theorem interlocked_of_busy (w : State → State) (s : State) (h : s.cmdBusy = true) : s.interlocked w = { s with haz := true } :=
  if_pos h

/-- The operand registers stand at the words of 0x010 to 0x01C and 0x028 to 0x050 (20_memory R64). -/
theorem locate_operand_range (o : Nat) (ho : o % 4 = 0) (h : (0x010 ≤ o ∧ o ≤ 0x01C) ∨ (0x028 ≤ o ∧ o ≤ 0x050)) :
    ∃ r, locate o = .operand r := by
  have hwords : ∀ k < 21, (4 ≤ k ∧ k ≤ 7) ∨ 10 ≤ k → ∃ r ∈ operandRegisters, r.offset.toNat = 4 * k := by decide
  obtain ⟨r, -, hr⟩ := hwords (o / 4) (by omega) (by omega)
  refine ⟨r, ?_⟩
  rw [← locate_operand r, hr, Nat.mul_div_cancel' (Nat.dvd_of_mod_eq_zero ho)]

/-- With CMD_BUSY = 1 a write to CMD, an operand register or a staging word is dropped (70_reset_and_hazards R210). -/
theorem writeLocation_of_busy (o : Nat) (v : Word) (s : State) (hb : s.cmdBusy = true)
    (h : locate o = .cmd ∨ (∃ r, locate o = .operand r) ∨ locate o = .mstage ∨ locate o = .batch ∨ locate o = .text) :
    s.writeLocation o v = some { s with haz := true } := by
  unfold State.writeLocation
  rcases h with hl | ⟨r, hl⟩ | hl | hl | hl <;> rw [hl] <;> exact congrArg some (interlocked_of_busy _ s hb)

/-- Where a read-only register stands in the window (20_memory R64). -/
def ReadOnlyReg.offset : ReadOnlyReg → BitVec 12
  | .id => 0x000
  | .err => 0x00C
  | .resultRgb => 0x020
  | .result565 => 0x024
  | .hexout0 => 0x058
  | .hexout1 => 0x05C
  | .scrollStatus => 0x060
  | .scrollPos => 0x068

/-- The read-only registers, in the order of the window (10_state R41, 20_memory R64). -/
def readOnlyRegisters : List ReadOnlyReg := [.id, .err, .resultRgb, .result565, .hexout0, .hexout1, .scrollStatus, .scrollPos]

theorem locate_readOnly (r : ReadOnlyReg) : locate r.offset.toNat = .readOnly r := by cases r <;> rfl

/-- The memories that the block alone writes (20_memory R64, 10_state R41). -/
theorem locate_blockMemory (o : Nat) (h : (0x100 ≤ o ∧ o < 0x180) ∨ (0x400 ≤ o ∧ o < 0x500)) :
    locate o = .fbwin ∨ locate o = .mresult := by
  unfold locate
  split_ifs
  any_goals simp only [or_true, true_or]
  all_goals omega

/-- A write to a read-only register, FBWIN or MRESULT is ignored (10_state R41). -/
theorem writeLocation_ignored (o : Nat) (v : Word) (s : State)
    (h : (∃ r, locate o = .readOnly r) ∨ locate o = .fbwin ∨ locate o = .mresult) : s.writeLocation o v = some s := by
  unfold State.writeLocation
  rcases h with ⟨r, hl⟩ | hl | hl <;> rw [hl]

/-- Settles O47: what stands at the offset decides what the write does, and the interlock does not see the W1C and ignored writes. -/
theorem busyInterlockDropsWrites : Obligations.BusyInterlockDropsWrites := by
  intro s v o ho
  refine ⟨fun hbusy h => ?_, ?_, ?_, fun h => ?_⟩
  · have hb : s.cmdBusy = true := by simpa [State.cmdBusy] using hbusy
    refine next_write o v s _ ho (writeLocation_of_busy _ v s hb ?_)
    rcases h with rfl | h | h | h | h
    · exact .inl rfl
    · exact .inr (.inl (locate_operand_range _ ho (.inl h)))
    · exact .inr (.inl (locate_operand_range _ ho (.inr h)))
    · exact .inr (.inr (locate_staging _ (.inl h)))
    · exact .inr (.inr (locate_staging _ (.inr h)))
  · rintro rfl
    exact next_write _ v s (s.writeStatus v) rfl rfl
  · rintro rfl
    exact next_write _ v s (s.writeScrollDone v) rfl rfl
  · refine next_write o v s s ho (writeLocation_ignored _ v s ?_)
    rcases h with h | h
    · obtain ⟨r, -, rfl⟩ := List.mem_map.mp (show o ∈ readOnlyRegisters.map ReadOnlyReg.offset from h)
      exact .inl ⟨r, locate_readOnly r⟩
    · exact .inr (locate_blockMemory _ h)

end Sys2Proof.Machine
end
